-- ==== Sys2Proof/Word.lean ====
section
/-! DEFINITION. The word types of XFV (rules R8, R9): bytes, command words and the narrow operands,
and the bits a 1-bit register shows in a byte. -/

namespace Sys2Proof

/-- Every XFV register and every datum is one byte (rules R8, R53). -/
abbrev Byte := BitVec 8

/-- One word on the command port is one command (rules R8, R70, R71). -/
abbrev CommandWord := BitVec 16

/-- The explicit buffer index of RX_GET (rules R8, R72). -/
abbrev BufIndex := BitVec 7

/-- The width of RD's selector operand (rule R72). -/
abbrev SelectorCode := BitVec 4

end Sys2Proof
end

