-- ==== Sys2Proof/Config.lean ====
section
/-! DEFINITION. The fixed parameters of rule R7. None of them is configurable and no parameter is left
open (rule R8), so XFV has no free value. The control codes and the limit that only firmware uses are
kept for the reader; no rule of the machine mentions them. -/

namespace Sys2Proof.Config

/-- PAYLOAD_LEN (rule R7). -/
abbrev payloadLen : Nat := 128

/-- FRAME_LEN (rule R7). -/
abbrev frameLen : Nat := 132

/-- SEQ_RESET (rule R7). -/
def seqReset : Byte := 0x01

/-- SOH, the header byte of a data frame (rules R7, R13). -/
def soh : Byte := 0x01

/-- EOT (rule R7). -/
def eot : Byte := 0x04

/-- ACK, firmware use only (rule R7). -/
def ack : Byte := 0x06

/-- NAK, firmware use only (rule R7). -/
def nak : Byte := 0x15

/-- CAN, firmware use only (rule R7). -/
def can : Byte := 0x18

/-- MAX_ATTEMPTS, firmware use only: XFV has no retry counter (rule R7). -/
def maxAttempts : Nat := 10

end Sys2Proof.Config
end

