-- ==== Sys2Proof/Syntax.lean ====
section
/-! DEFINITION. The command set of XFV: one constructor per row of the opcode table (rule R73), with
every operand in the type of its operand class (rule R72); the names of the register views RD selects
(rule R40); and the terms of the textual form of rules R82 and R83. -/

namespace Sys2Proof

/-- The sixteen register views of rule R40, in the order of their selectors 0x0 to 0xF. -/
inductive RegView where
  | status | seq | txcnt | txpos | txseq | txsum | rxpos | rxsum
  | result | rxhdr | rxseq | rxcmp | rxck | rxexp | err | ctrl
  deriving DecidableEq, Repr

/-- The twelve commands (rule R73). -/
inductive Instr where
  | nop
  | rst
  | seqSet (b : Byte)
  | seqInc
  | txClr
  | txPut (b : Byte)
  | txFrame
  | txPop
  | rxArm (m : Bool)
  | rxPush (b : Byte)
  | rxGet (i : BufIndex)
  | rd (v : RegView)
  deriving DecidableEq, Repr

/-- The twelve mnemonics (rule R73). -/
inductive Mnemonic where
  | NOP | RST | SEQ_SET | SEQ_INC | TX_CLR | TX_PUT | TX_FRAME | TX_POP
  | RX_ARM | RX_PUSH | RX_GET | RD
  deriving DecidableEq, Repr

/-- The five operand classes of IMM8 (rule R72). -/
inductive OperandClass where
  | none | byte | mode | index | selector
  deriving DecidableEq, Repr

/-- A line of rule R82's textual form: a mnemonic and, unless its class is `none`, an operand. -/
structure SourceLine where
  mnemonic : Mnemonic
  operand  : Option Nat
  deriving DecidableEq, Repr

/-- The pseudo-commands of rule R83, with the operands as written. -/
inductive Pseudo where
  | txLoad (bs : List Nat)
  | txEmit
  | rxFeed (bs : List Nat)
  | rxCheck (bs : List Nat)
  | rdStatus
  | rdResult
  | rdErr
  deriving DecidableEq, Repr

end Sys2Proof
end

