-- ==== Sys2Proof/WellFormed.lean ====
section
/-! DEFINITION. What makes a term of the command set well formed: an operand is present exactly when its
class asks for one, and lies in the legal range of its class (rules R72, R82, R83). The types of
`Instr` already keep an instruction's operand in range; the checks below can fail on a line of source
text and on a pseudo-command, whose operands are numbers as written. -/

namespace Sys2Proof

/-- How many operand values a class has: legal operands are 0 up to one less (rule R72). -/
def OperandClass.bound : OperandClass → Nat
  | .none => 0
  | .byte => 256
  | .mode => 2
  | .index => 128
  | .selector => 16

/-- The operand class of a mnemonic (rule R72). -/
def Mnemonic.operandClass : Mnemonic → OperandClass
  | .NOP | .RST | .SEQ_INC | .TX_CLR | .TX_FRAME | .TX_POP => .none
  | .SEQ_SET | .TX_PUT | .RX_PUSH => .byte
  | .RX_ARM => .mode
  | .RX_GET => .index
  | .RD => .selector

/-- An operand as written suits a class: present exactly when the class has one, and in range. -/
def OperandClass.admits (c : OperandClass) : Option Nat → Bool
  | .none => decide (c = OperandClass.none)
  | .some v => decide (v < c.bound)

/-- A source line is well formed: "must be in its class's legal range" (rule R82). -/
def SourceLine.wf (l : SourceLine) : Bool :=
  l.mnemonic.operandClass.admits l.operand

/-- A list of byte operands: each in the range of the byte class (rule R72). -/
def allBytes (bs : List Nat) : Bool :=
  bs.all fun b => decide (b < OperandClass.byte.bound)

/-- A pseudo-command is well formed: 1 to 128 bytes for TX_LOAD, at least one for RX_FEED, 132 for
RX_CHECK, and each a legal byte operand (rule R83). -/
def Pseudo.wf : Pseudo → Bool
  | .txLoad bs => decide (1 ≤ bs.length ∧ bs.length ≤ Config.payloadLen) && allBytes bs
  | .rxFeed bs => decide (1 ≤ bs.length) && allBytes bs
  | .rxCheck bs => decide (bs.length = Config.frameLen) && allBytes bs
  | .txEmit | .rdStatus | .rdResult | .rdErr => true

/-- The mnemonic of an instruction. -/
def Instr.mnemonic : Instr → Mnemonic
  | .nop => .NOP
  | .rst => .RST
  | .seqSet _ => .SEQ_SET
  | .seqInc => .SEQ_INC
  | .txClr => .TX_CLR
  | .txPut _ => .TX_PUT
  | .txFrame => .TX_FRAME
  | .txPop => .TX_POP
  | .rxArm _ => .RX_ARM
  | .rxPush _ => .RX_PUSH
  | .rxGet _ => .RX_GET
  | .rd _ => .RD

/-- The selector of a register view (rule R40), as a number. -/
def RegView.selector : RegView → Nat
  | .status => 0x0
  | .seq => 0x1
  | .txcnt => 0x2
  | .txpos => 0x3
  | .txseq => 0x4
  | .txsum => 0x5
  | .rxpos => 0x6
  | .rxsum => 0x7
  | .result => 0x8
  | .rxhdr => 0x9
  | .rxseq => 0xA
  | .rxcmp => 0xB
  | .rxck => 0xC
  | .rxexp => 0xD
  | .err => 0xE
  | .ctrl => 0xF

/-- An instruction as a source line: its mnemonic and its operand as a number (rule R72: an operand used
as a number is zero-extended). -/
def Instr.sourceLine (i : Instr) : SourceLine where
  mnemonic := i.mnemonic
  operand :=
    match i with
    | .nop | .rst | .seqInc | .txClr | .txFrame | .txPop => .none
    | .seqSet b | .txPut b | .rxPush b => .some b.toNat
    | .rxArm m => .some m.toNat
    | .rxGet i => .some i.toNat
    | .rd v => .some v.selector

/-- An instruction is well formed when its operand suits its class (rule R72). -/
def Instr.wf (i : Instr) : Bool := i.sourceLine.wf

end Sys2Proof
end

