-- ==== Sys2Proof/Decode.lean ====
section
/-! DEFINITION. Decoding and encoding of command words (rules R70 to R76, R80, R81). The decoder is rule
R75's function; an illegal word is rejected with the clause of rule R80 it falls under. The encoder is
written from the `match` column of rule R73. -/

namespace Sys2Proof

/-- Why a word is illegal: clauses (a) to (f) of rule R80. -/
inductive IllegalWord where
  /-- (a) OP is 0xC, 0xD, 0xE or 0xF -/
  | unusedOpcode
  /-- (b) RSV is not 0 -/
  | reservedBits
  /-- (c) a command of class `none` with IMM8 not 0x00 -/
  | strayOperand
  /-- (d) RX_ARM with IMM8[7:1] not 0 -/
  | modeBits
  /-- (e) RX_GET with IMM8[7] = 1 -/
  | indexBit
  /-- (f) RD with IMM8[7:4] not 0 -/
  | selectorBits
  deriving DecidableEq, Repr

/-- OP, bits 15:12 (rule R70). -/
def opField (w : CommandWord) : BitVec 4 := w.extractLsb' 12 4

/-- RSV, bits 11:8 (rule R70). -/
def rsvField (w : CommandWord) : BitVec 4 := w.extractLsb' 8 4

/-- IMM8, bits 7:0 (rule R70). -/
def immField (w : CommandWord) : Byte := w.extractLsb' 0 8

/-- The register view a selector names (rule R40). The last arm is selector 0xF. -/
def RegView.ofSelector (s : SelectorCode) : RegView :=
  match s with
  | 0x0#4 => .status
  | 0x1#4 => .seq
  | 0x2#4 => .txcnt
  | 0x3#4 => .txpos
  | 0x4#4 => .txseq
  | 0x5#4 => .txsum
  | 0x6#4 => .rxpos
  | 0x7#4 => .rxsum
  | 0x8#4 => .result
  | 0x9#4 => .rxhdr
  | 0xA#4 => .rxseq
  | 0xB#4 => .rxcmp
  | 0xC#4 => .rxck
  | 0xD#4 => .rxexp
  | 0xE#4 => .err
  | _ => .ctrl

/-- A command of operand class `none`: legal only with IMM8 = 0x00 (rules R72, R75). -/
def decodeNone (imm : Byte) (i : Instr) : Except IllegalWord Instr :=
  if imm = 0x00 then .ok i else .error .strayOperand

/-- RX_ARM: the mode is IMM8[0], and IMM8[7:1] must be 0 (rules R72, R75). -/
def decodeMode (imm : Byte) : Except IllegalWord Instr :=
  if imm.extractLsb' 1 7 = 0 then .ok (.rxArm (imm.getLsbD 0)) else .error .modeBits

/-- RX_GET: the index is IMM8[6:0], and IMM8[7] must be 0 (rules R72, R75). -/
def decodeIndex (imm : Byte) : Except IllegalWord Instr :=
  if imm.getLsbD 7 = false then .ok (.rxGet (imm.extractLsb' 0 7)) else .error .indexBit

/-- RD: the selector is IMM8[3:0], and IMM8[7:4] must be 0 (rules R72, R75). -/
def decodeSelector (imm : Byte) : Except IllegalWord Instr :=
  if imm.extractLsb' 4 4 = 0 then .ok (.rd (RegView.ofSelector (imm.extractLsb' 0 4)))
  else .error .selectorBits

/-- The command of an opcode when RSV is 0: one arm is one row of rule R75. The last arm is OP 0xC to
0xF. -/
def decodeRow (op : BitVec 4) (imm : Byte) : Except IllegalWord Instr :=
  match op with
  | 0x0#4 => decodeNone imm .nop
  | 0x1#4 => decodeNone imm .rst
  | 0x2#4 => .ok (.seqSet imm)
  | 0x3#4 => decodeNone imm .seqInc
  | 0x4#4 => decodeNone imm .txClr
  | 0x5#4 => .ok (.txPut imm)
  | 0x6#4 => decodeNone imm .txFrame
  | 0x7#4 => decodeNone imm .txPop
  | 0x8#4 => decodeMode imm
  | 0x9#4 => .ok (.rxPush imm)
  | 0xA#4 => decodeIndex imm
  | 0xB#4 => decodeSelector imm
  | _ => .error .unusedOpcode

/-- Rule R75's decoder: total on every 16-bit word. -/
def decode (w : CommandWord) : Except IllegalWord Instr :=
  if rsvField w ≠ 0 then .error .reservedBits else decodeRow (opField w) (immField w)

/-- The `match` column of rule R73. -/
def Mnemonic.matchWord : Mnemonic → CommandWord
  | .NOP => 0x0000
  | .RST => 0x1000
  | .SEQ_SET => 0x2000
  | .SEQ_INC => 0x3000
  | .TX_CLR => 0x4000
  | .TX_PUT => 0x5000
  | .TX_FRAME => 0x6000
  | .TX_POP => 0x7000
  | .RX_ARM => 0x8000
  | .RX_PUSH => 0x9000
  | .RX_GET => 0xA000
  | .RD => 0xB000

/-- The `mask` column of rule R73. -/
def Mnemonic.maskWord : Mnemonic → CommandWord
  | .NOP | .RST | .SEQ_INC | .TX_CLR | .TX_FRAME | .TX_POP => 0xFFFF
  | .SEQ_SET | .TX_PUT | .RX_PUSH => 0xFF00
  | .RX_ARM => 0xFFFE
  | .RX_GET => 0xFF80
  | .RD => 0xFFF0

/-- IMM8 of an instruction: its operand in the low bits, zeros above (rule R72). -/
def Instr.imm8 : Instr → Byte
  | .nop | .rst | .seqInc | .txClr | .txFrame | .txPop => 0x00
  | .seqSet b | .txPut b | .rxPush b => b
  | .rxArm m => if m then 0x01 else 0x00
  | .rxGet i => i.setWidth 8
  | .rd v => BitVec.ofNat 8 v.selector

/-- The word of an instruction: `match_MNEMONIC OR v` (rule R82). -/
def encode (i : Instr) : CommandWord :=
  i.mnemonic.matchWord ||| i.imm8.setWidth 16

/-- The instruction the decoder reads from a word numbered as spec/opcode_table.json numbers it: a
command is one parallel 16-bit value (rules R53, R71), so a number that does not fit one is no command. -/
def decodeTableWord (nbits w : Nat) : Option Instr :=
  let v := w % 2 ^ nbits
  if v < 2 ^ 16 then (decode (BitVec.ofNat 16 v)).toOption else none

end Sys2Proof
end

