-- ==== Sys2Proof/Machine/State.lean ====
section
/-! DEFINITION. The state of XFV as plain data: every register and buffer of rule R20 and nothing else of
the spec's, with the host's command stream beside it; the error causes and verdicts; the two ways a step
of the model can stop; and the reset state of rule R42. -/

namespace Sys2Proof.Machine

/-- A buffer of PAYLOAD_LEN = 128 bytes, indexed 0..127 (rules R7, R23, R29, R50). -/
abbrev Buffer := Vector Byte 128

/-- The state of XFV (rule R20). The 1-bit registers are `Bool`: true is 1. -/
structure State where
  /-- SEQ, the expected/next sequence number (rule R22) -/
  seq : Byte
  /-- TXBUF, the framer's payload buffer (rule R23) -/
  txbuf : Buffer
  /-- TXCNT, the number of real payload bytes loaded (rule R24) -/
  txcnt : Byte
  /-- TXPOS, the index of the next frame byte TX_POP emits (rule R26) -/
  txpos : Byte
  /-- TXSEQ, the sequence number latched by TX_FRAME (rule R27) -/
  txseq : Byte
  /-- TXSUM, the checksum latched by TX_FRAME (rule R28) -/
  txsum : Byte
  /-- TXACT, 1 while a frame is being emitted (rule R25) -/
  txact : Bool
  /-- RXBUF, the validator's payload buffer (rule R29) -/
  rxbuf : Buffer
  /-- RXPOS, the number of bytes of the current frame accepted (rule R31) -/
  rxpos : Byte
  /-- RXSUM, the running checksum of the current frame's payload (rule R32) -/
  rxsum : Byte
  /-- RESULT, the verdict code of the last completed frame (rule R34) -/
  result : Byte
  /-- RXHDR, the captured header byte (rule R36) -/
  rxhdr : Byte
  /-- RXSEQ, the captured sequence byte (rule R36) -/
  rxseq : Byte
  /-- RXCMP, the captured complement byte (rule R36) -/
  rxcmp : Byte
  /-- RXCK, the captured checksum byte (rule R36) -/
  rxck : Byte
  /-- RXEXP, the expected sequence number latched by RX_ARM (rule R33) -/
  rxexp : Byte
  /-- ERR, the sticky error register (rule R37) -/
  err : Byte
  /-- CHKSEQ, 1 when the continuity check is enabled (rule R35) -/
  chkseq : Bool
  /-- RXACT, 1 while the validator is ARMED (rule R30) -/
  rxact : Bool
  /-- RXDONE, 1 while a verdict stands (rule R30) -/
  rxdone : Bool
  /-- RESP, the response register (rule R38) -/
  resp : Byte
  /-- THE MODEL'S OWN FIELD: the words the host has still to put on the command port, the next one
  first (DESIGN CHOICE, safe: assumption 1; rules R12, R58, R180) -/
  pending : List CommandWord
  deriving DecidableEq, Repr

/-- The five error causes of rule R150. -/
inductive ErrCause where
  | illegal | txFull | txBusy | txEmpty | rxIdle
  deriving DecidableEq, Repr

/-- The verdicts of rule R34; NONE is the absence of a verdict. -/
inductive Verdict where
  | none | ok | eot | badHdr | badCmp | badSeq | badSum
  deriving DecidableEq, Repr

/-- Where the model stops. Each constructor stands for states rule R41 calls not reachable, in which a
rule would index a buffer or a frame outside its range; the spec gives no effect there (DESIGN CHOICE,
safe: assumption 5). -/
inductive Fault where
  /-- Raised by TX_PUT with TXACT = 0 and TXCNT > 128, where `TXBUF[TXCNT]` does not exist (rules R50,
  R103, R41 I7). Safe: a stop. -/
  | txPutIndexOutside
  /-- Raised by TX_POP with TXACT = 1 and TXPOS > 131, where F(TXPOS) does not exist (rules R107, R108,
  R41 I2). Safe: a stop. -/
  | txPopPositionOutside
  /-- Raised by RX_PUSH with RXACT = 1 and RXPOS > 131, where no stage exists (rules R124, R41 I5).
  Safe: a stop. -/
  | rxPushPositionOutside
  deriving DecidableEq, Repr

/-- Refusals. Every command has its meaning, so none is ever answered. -/
inductive Refusal where
  /-- An instruction whose arm has no meaning yet; raised by no arm of this model. Safe: a stop. -/
  | notModelled (mnemonic : String)
  deriving DecidableEq, Repr

/-- What a step or a command answers. -/
abbrev Result := Host.Outcome State Fault Refusal

/-- A buffer of 128 zero bytes. -/
def zeroBuffer : Buffer := Vector.replicate 128 0x00

/-- The state after power-on reset (rules R42, R170), with no command word pending. -/
def State.reset : State where
  seq := Config.seqReset
  txbuf := zeroBuffer
  txcnt := 0x00
  txpos := 0x00
  txseq := 0x00
  txsum := 0x00
  txact := false
  rxbuf := zeroBuffer
  rxpos := 0x00
  rxsum := 0x00
  result := 0x00
  rxhdr := 0x00
  rxseq := 0x00
  rxcmp := 0x00
  rxck := 0x00
  rxexp := 0x00
  err := 0x00
  chkseq := false
  rxact := false
  rxdone := false
  resp := 0x00
  pending := []

end Sys2Proof.Machine
end

