-- ==== Sys2Proof/Machine/Ops.lean ====
section
/-! DEFINITION. The operations the commands share: raising an error (the only kind of exception XFV has,
rules R150 to R154), writing RESP, ending a frame with a verdict, reading and writing the buffers, the
checksum, the frame byte function, reset, and taking the next word from the command port. -/

namespace Sys2Proof.Machine

/-- The ERR bit number of a cause, which is its code (rules R37, R150). -/
def ErrCause.bit : ErrCause → Nat
  | .illegal => 0
  | .txFull => 1
  | .txBusy => 2
  | .txEmpty => 3
  | .rxIdle => 4

/-- `ERR[E] <- 1`: a raised bit is ORed in and the others stay (rules R11, R153). -/
def setErr (e : ErrCause) (s : State) : State :=
  { s with err := s.err ||| (1#8 <<< e.bit) }

/-- `raise E` (rules R11, R151, R154): set the bit and end the command. No trap is entered, nothing is
saved and no later command is affected, so there is no return from an error to model. -/
def raise (e : ErrCause) (s : State) : Result := .next (setErr e s)

/-- `RESP <- v` (rules R11, R38). -/
def respond (v : Byte) (s : State) : State := { s with resp := v }

/-- The result codes of rule R34. -/
def Verdict.code : Verdict → Byte
  | .none => 0x00
  | .ok => 0x01
  | .eot => 0x02
  | .badHdr => 0x03
  | .badCmp => 0x04
  | .badSeq => 0x05
  | .badSum => 0x06

/-- `verdict(c)` (rule R125). -/
def conclude (c : Verdict) (s : State) : State :=
  { s with result := c.code, rxact := false, rxdone := true }

/-- Byte `i` of a buffer (rules R11, R50). -/
def bufRead (buf : Buffer) (i : Fin 128) : Byte := buf[i]

/-- A buffer with byte `i` replaced (rules R11, R50). -/
def bufWrite (buf : Buffer) (i : Fin 128) (b : Byte) : Buffer := buf.set i b

/-- The sum of some bytes modulo 256, computed exactly and then narrowed (rules R10, R100). -/
def sumBytes (bs : List Byte) : Byte := BitVec.ofNat 8 (bs.map BitVec.toNat).sum

/-- The checksum of a payload: the sum of all its 128 bytes modulo 256 (rules R100, R105, R106). -/
def checksum (buf : Buffer) : Byte := sumBytes buf.toList

/-- The complement byte of a sequence number, `0xFF - seq` (rules R10, R100). -/
def complement (seq : Byte) : Byte := 0xFF - seq

/-- F(k), the byte at position `k` of the frame being emitted (rule R107). -/
def frameByte (s : State) (k : Fin 132) : Byte :=
  if k.val = 0 then Config.soh
  else if k.val = 1 then s.txseq
  else if k.val = 2 then complement s.txseq
  else if h : k.val - 3 < 128 then bufRead s.txbuf ⟨k.val - 3, h⟩
  else s.txsum

/-- Every register and buffer takes its reset value (rules R42, R141). The host's words still to come
are no part of XFV and stay (assumption 1). -/
def resetRegisters (s : State) : State := { State.reset with pending := s.pending }

/-- The next word on the command port and the state once it is taken; none when the host issues no more
(rules R12, R58, R180; assumptions 1 and 2). -/
def fetch (s : State) : Option (CommandWord × State) :=
  match s.pending with
  | [] => none
  | w :: rest => some (w, { s with pending := rest })

end Sys2Proof.Machine
end

