-- ==== Sys2Proof/Machine/Flags.lean ====
section
/-! DEFINITION. The flags of rule R43: the STATUS and CTRL views assembled from the 1-bit registers, and
the two derived bits TXFULL and ERRANY. XFV has no arithmetic condition codes. -/

namespace Sys2Proof.Machine

/-- A byte with bit `k` set when `c` holds. -/
def flagBit (k : Nat) (c : Bool) : Byte := if c then 1#8 <<< k else 0#8

/-- ERR as it reads: bits 4:0, with bits 7:5 reading 0 (rules R37, R40; DEDUCED for states outside rule
R41, safe: assumption 6). -/
def errView (s : State) : Byte := s.err &&& 0x1F

/-- TXFULL: 1 if TXCNT = 128 (rule R39). -/
def txFull (s : State) : Bool := decide (s.txcnt = 128)

/-- ERRANY: 1 exactly when `RD 0x0E` would read non-zero (rules R39, R142; DEDUCED, safe:
assumption 6). -/
def errAny (s : State) : Bool := decide (errView s ≠ 0)

/-- The STATUS view (rule R39): bits 0 TXACT, 1 TXFULL, 2 RXACT, 3 RXDONE, 4 ERRANY, 7:5 zero. -/
def statusView (s : State) : Byte :=
  flagBit 0 s.txact ||| flagBit 1 (txFull s) ||| flagBit 2 s.rxact ||| flagBit 3 s.rxdone
    ||| flagBit 4 (errAny s)

/-- The CTRL view (rule R35): bit 0 is CHKSEQ, bits 7:1 are zero. -/
def ctrlView (s : State) : Byte := flagBit 0 s.chkseq

end Sys2Proof.Machine
end

