-- ==== Sys2Proof/Machine/Operands.lean ====
section
/-! DEFINITION. What an operand reaches in the machine: the register view a selector names (rule R40) and
the buffer byte an explicit index names (rules R50, R72). Byte and mode operands are the value itself. -/

namespace Sys2Proof.Machine

/-- The value of a register view (rules R40, R142). -/
def viewOf (v : RegView) (s : State) : Byte :=
  match v with
  | .status => statusView s
  | .seq => s.seq
  | .txcnt => s.txcnt
  | .txpos => s.txpos
  | .txseq => s.txseq
  | .txsum => s.txsum
  | .rxpos => s.rxpos
  | .rxsum => s.rxsum
  | .result => s.result
  | .rxhdr => s.rxhdr
  | .rxseq => s.rxseq
  | .rxcmp => s.rxcmp
  | .rxck => s.rxck
  | .rxexp => s.rxexp
  | .err => errView s
  | .ctrl => ctrlView s

/-- The buffer position of a 7-bit index: an index operand is always one of 0..127 (rules R50, R72). -/
def indexOf (i : BufIndex) : Fin 128 := i.toFin

end Sys2Proof.Machine
end

