-- ==== Sys2Proof/Machine/Framer.lean ====
section
/-! DEFINITION. The framer commands TX_CLR, TX_PUT, TX_FRAME and TX_POP (rules R100 to R111). -/

namespace Sys2Proof.Machine

/-- TX_CLR: zero the payload buffer and cancel any frame (rule R101). -/
def execTxClr (s : State) : Result :=
  .next { s with
    txbuf := zeroBuffer, txcnt := 0x00, txpos := 0x00, txseq := 0x00, txsum := 0x00, txact := false }

/-- TX_PUT: append one real payload byte. TXBUSY is checked before TXFULL (rules R103, R156). -/
def execTxPut (b : Byte) (s : State) : Result :=
  if s.txact then raise .txBusy s
  else if s.txcnt = 128 then raise .txFull s
  else if h : s.txcnt.toNat < 128 then
    .next { s with txbuf := bufWrite s.txbuf ⟨s.txcnt.toNat, h⟩ b, txcnt := s.txcnt + 1 }
  else .fault .txPutIndexOutside

/-- TX_FRAME: latch the sequence number and the checksum and start emission (rules R104, R105). -/
def execTxFrame (s : State) : Result :=
  .next { s with txseq := s.seq, txsum := checksum s.txbuf, txpos := 0x00, txact := true }

/-- TX_POP: emit the next frame byte; the 132nd ends the frame (rule R108). With no frame RESP becomes
0x00 and TXEMPTY is raised. -/
def execTxPop (s : State) : Result :=
  if s.txact then
    if h : s.txpos.toNat < 132 then
      .next { s with
        resp := frameByte s ⟨s.txpos.toNat, h⟩
        txpos := s.txpos + 1
        txact := decide (s.txpos + 1 ≠ 132) }
    else .fault .txPopPositionOutside
  else raise .txEmpty (respond 0x00 s)

end Sys2Proof.Machine
end

