-- ==== Sys2Proof/Machine/Sequence.lean ====
section
/-! DEFINITION. The sequence register commands SEQ_SET and SEQ_INC (rules R90 to R93). -/

namespace Sys2Proof.Machine

/-- SEQ_SET (rule R90). -/
def execSeqSet (b : Byte) (s : State) : Result := .next { s with seq := b }

/-- SEQ_INC: wrapping addition, through 0 (rule R91). -/
def execSeqInc (s : State) : Result := .next { s with seq := s.seq + 1 }

end Sys2Proof.Machine
end

