-- ==== Sys2Proof/Machine/System.lean ====
section
/-! DEFINITION. The system commands NOP, RST and RD (rules R140 to R143), and what an illegal command
word does (rules R80, R81, R151). -/

namespace Sys2Proof.Machine

/-- NOP: no state changes (rule R140). -/
def execNop (s : State) : Result := .next s

/-- RST: every register and buffer takes its reset value (rules R141, R42, R170). -/
def execRst (s : State) : Result := .next (resetRegisters s)

/-- RD: read a register view into RESP (rule R142). -/
def execRd (v : RegView) (s : State) : Result := .next (respond (viewOf v s) s)

/-- An illegal word: ERR bit 0 is set and nothing else changes (rules R80, R151, R155). -/
def execIllegal (s : State) : Result := raise .illegal s

end Sys2Proof.Machine
end

