-- ==== Sys2Proof/Machine/Validator.lean ====
section
/-! DEFINITION. The validator commands RX_ARM, RX_PUSH and RX_GET (rules R120 to R134), with the five
stages of RX_PUSH as one definition each. -/

namespace Sys2Proof.Machine

/-- RX_ARM: arm the validator for one frame; RXBUF is not changed (rule R121). -/
def execRxArm (m : Bool) (s : State) : Result :=
  .next { s with
    rxact := true, rxdone := false, result := Verdict.none.code, rxpos := 0x00, rxsum := 0x00,
    rxhdr := 0x00, rxseq := 0x00, rxcmp := 0x00, rxck := 0x00, rxexp := s.seq, chkseq := m }

/-- Header stage, position 0 (rule R126). -/
def headerStage (b : Byte) (s : State) : State :=
  let s := { s with rxhdr := b }
  if b = Config.soh then s
  else if b = Config.eot then conclude .eot s
  else conclude .badHdr s

/-- Sequence stage, position 1 (rule R127). -/
def seqStage (b : Byte) (s : State) : State := { s with rxseq := b }

/-- Complement stage, position 2: consistency first, then continuity (rules R128, R157). -/
def cmpStage (b : Byte) (s : State) : State :=
  let s := { s with rxcmp := b }
  if b ≠ complement s.rxseq then conclude .badCmp s
  else if s.chkseq = true ∧ s.rxseq ≠ s.rxexp then conclude .badSeq s
  else s

/-- Payload stage, positions 3 to 130: byte `i` of the payload is at position `3 + i` (rule R129). -/
def payloadStage (i : Fin 128) (b : Byte) (s : State) : State :=
  { s with rxbuf := bufWrite s.rxbuf i b, rxsum := s.rxsum + b }

/-- Checksum stage, position 131 (rule R130). -/
def sumStage (b : Byte) (s : State) : State :=
  let s := { s with rxck := b }
  if b = s.rxsum then conclude .ok s else conclude .badSum s

/-- The stage of frame position `p`, 0..131 (rule R124). -/
def rxStage (p : Fin 132) (b : Byte) (s : State) : State :=
  if p.val = 0 then headerStage b s
  else if p.val = 1 then seqStage b s
  else if p.val = 2 then cmpStage b s
  else if h : p.val - 3 < 128 then payloadStage ⟨p.val - 3, h⟩ b s
  else sumStage b s

/-- RX_PUSH: feed one received byte to the validator (rule R124). -/
def execRxPush (b : Byte) (s : State) : Result :=
  if s.rxact then
    if h : s.rxpos.toNat < 132 then
      .next (rxStage ⟨s.rxpos.toNat, h⟩ b { s with rxpos := s.rxpos + 1 })
    else .fault .rxPushPositionOutside
  else raise .rxIdle s

/-- RX_GET: read one byte of the received payload, in any validator state (rule R133). -/
def execRxGet (i : BufIndex) (s : State) : Result :=
  .next (respond (bufRead s.rxbuf (indexOf i)) s)

end Sys2Proof.Machine
end

