-- ==== Sys2Proof/Machine/Dispatch.lean ====
section
/-! DEFINITION. One arm per command of rule R73, each one call of its meaning. -/

namespace Sys2Proof.Machine

def exec (i : Instr) (s : State) : Host.Outcome State Fault Refusal :=
  match i with
  | .nop => Sys2Proof.Machine.execNop s
  | .rst => Sys2Proof.Machine.execRst s
  | .seqSet b => Sys2Proof.Machine.execSeqSet b s
  | .seqInc => Sys2Proof.Machine.execSeqInc s
  | .txClr => Sys2Proof.Machine.execTxClr s
  | .txPut b => Sys2Proof.Machine.execTxPut b s
  | .txFrame => Sys2Proof.Machine.execTxFrame s
  | .txPop => Sys2Proof.Machine.execTxPop s
  | .rxArm m => Sys2Proof.Machine.execRxArm m s
  | .rxPush b => Sys2Proof.Machine.execRxPush b s
  | .rxGet k => Sys2Proof.Machine.execRxGet k s
  | .rd v => Sys2Proof.Machine.execRd v s

end Sys2Proof.Machine
end

