-- ==== Sys2Proof/Machine/Command.lean ====
section
/-! DEFINITION. One command word applied to a state (rules R12, R75, R155), and a run of command words
with what the host sees of it (rule R180). -/

namespace Sys2Proof.Machine

/-- One command word: decoding comes before execution, and an illegal word raises ILLEGAL and nothing
else (rules R12, R80, R155). -/
def command (w : CommandWord) (s : State) : Result :=
  match decode w with
  | .ok i => exec i s
  | .error _ => execIllegal s

/-- A run: the words applied in order, with the value RESP holds after each command (rules R143, R180).
A fault or a refusal ends the run with itself. -/
def run : List CommandWord → State → Host.Outcome (State × List Byte) Fault Refusal
  | [], s => .next (s, [])
  | w :: ws, s =>
    match command w s with
    | .next t =>
      match run ws t with
      | .next (u, resps) => .next (u, t.resp :: resps)
      | .fault f => .fault f
      | .refused r => .refused r
    | .fault f => .fault f
    | .refused r => .refused r

end Sys2Proof.Machine
end

