-- ==== Sys2Proof/Machine/Step.lean ====
section
/-! DEFINITION. The step of the machine: take the next word the host puts on the command port and perform
that command. With no word left the state is held, for any time (rules R166, R180; assumption 2). -/

namespace Sys2Proof.Machine

/-- One step. -/
def step (s : State) : Host.Outcome State Fault Refusal :=
  match fetch s with
  | none => .next s
  | some (w, s') => command w s'

/-- The state in which the next word on the command port is `w` (bits above `nbits` zero), so that the
next step runs it; every register stays, and so do the words behind it (assumptions 1 and 3). -/
def State.withFetchWord (s : State) (nbits w : Nat) : State :=
  { s with pending := BitVec.ofNat 16 (w % 2 ^ nbits) :: s.pending }

end Sys2Proof.Machine
end

