-- ==== Sys2Proof/Machine/Codec.lean ====
section
/-! DEFINITION. The document's packet codec as pure functions over whole frames, which the framer and the
validator are the hardware form of: `encode(seq, payload[128]) -> frame[132]` (rules R100, R109) and the
judgement of a received frame (rules R122, R131). No command calls them; claims are stated with them. -/

namespace Sys2Proof.Machine

/-- A whole frame of FRAME_LEN = 132 bytes (rules R7, R100). -/
abbrev Frame := Vector Byte 132

/-- A payload shorter than 128 bytes, padded with zero bytes (rules R102, R109). -/
def padded (p : List Byte) : List Byte := p ++ List.replicate (128 - p.length) 0x00

/-- `encode(seq, payload)`: SOH, sequence, complement, payload, checksum (rules R52, R109). -/
def encodeFrame (seq : Byte) (payload : List Byte) : List Byte :=
  [Config.soh, seq, complement seq] ++ payload ++ [sumBytes payload]

/-- The payload of a frame: bytes 3 to 130 (rule R13). -/
def framePayload (f : Frame) : List Byte := (f.toList.drop 3).take 128

/-- The one verdict a whole frame gets (rules R131, R157), where `chk` says whether continuity is checked
against `expected`. -/
def frameVerdict (chk : Bool) (expected : Byte) (f : Frame) : Verdict :=
  if f[0] = Config.eot then .eot
  else if f[0] ≠ Config.soh then .badHdr
  else if f[2] ≠ complement f[1] then .badCmp
  else if chk = true ∧ f[1] ≠ expected then .badSeq
  else if f[131] = sumBytes (framePayload f) then .ok
  else .badSum

/-- How many bytes of a frame a verdict takes: 1, 3 or 132 (rules R31, R131). -/
def Verdict.bytesTaken : Verdict → Nat
  | .none => 0
  | .eot | .badHdr => 1
  | .badCmp | .badSeq => 3
  | .ok | .badSum => 132

end Sys2Proof.Machine
end

