-- ==== Sys2Proof/Machine/Assembler.lean ====
section
/-! DEFINITION. The textual form of command sequences (rule R82) and the pseudo-commands (rule R83). They
have no effect on the machine (decision D22): each names a list of command words. What rule R82 leaves to
an assembler (blanks, letter case of hexadecimal digits) is assumption 8. -/

namespace Sys2Proof.Machine

/-- The word of a source line, `match_MNEMONIC OR v`; an operand out of range is an assembly error, which
is not an ILLEGAL word (rule R82). -/
def assembleLine (l : SourceLine) : Option CommandWord :=
  if l.wf then some (l.mnemonic.matchWord ||| BitVec.ofNat 16 (l.operand.getD 0)) else none

/-- The real commands a pseudo-command stands for, in order (rule R83). -/
def expandPseudo : Pseudo → List SourceLine
  | .txLoad bs => ⟨.TX_CLR, none⟩ :: bs.map fun b => ⟨.TX_PUT, some b⟩
  | .txEmit => List.replicate 132 ⟨.TX_POP, none⟩
  | .rxFeed bs => bs.map fun b => ⟨.RX_PUSH, some b⟩
  | .rxCheck bs => ⟨.RX_ARM, some 1⟩ :: bs.map fun b => ⟨.RX_PUSH, some b⟩
  | .rdStatus => [⟨.RD, some 0x00⟩]
  | .rdResult => [⟨.RD, some 0x08⟩]
  | .rdErr => [⟨.RD, some 0x0E⟩]

/-- All words of some lines, or an assembly error. -/
def assembleLines : List SourceLine → Option (List CommandWord)
  | [] => some []
  | l :: ls =>
    match assembleLine l, assembleLines ls with
    | some w, some ws => some (w :: ws)
    | _, _ => none

/-- The words of a pseudo-command, or an assembly error (rules R82, R83). -/
def assemblePseudo (p : Pseudo) : Option (List CommandWord) :=
  if p.wf then assembleLines (expandPseudo p) else none

/-- A blank between the parts of a line (DESIGN CHOICE: assumption 8). -/
def isBlank (c : Char) : Bool := c == ' ' || c == '\t' || c == '\r'

/-- A line without its comment, which runs from `;` to the end (rule R82). -/
def stripComment (l : List Char) : List Char := l.takeWhile fun c => c != ';'

/-- A list of characters without blanks at either end. -/
def trimBlanks (l : List Char) : List Char :=
  ((l.dropWhile isBlank).reverse.dropWhile isBlank).reverse

/-- The value of one hexadecimal digit, in either case (DESIGN CHOICE: assumption 8). -/
def hexDigit (c : Char) : Option Nat :=
  let n := c.toNat
  if 48 ≤ n ∧ n ≤ 57 then some (n - 48)
  else if 65 ≤ n ∧ n ≤ 70 then some (n - 55)
  else if 97 ≤ n ∧ n ≤ 102 then some (n - 87)
  else none

/-- The value of one decimal digit. -/
def decDigit (c : Char) : Option Nat :=
  let n := c.toNat
  if 48 ≤ n ∧ n ≤ 57 then some (n - 48) else none

/-- Digits of a base, most significant first, after the digits already read. -/
def readDigits (base : Nat) (digit : Char → Option Nat) : List Char → Nat → Option Nat
  | [], acc => some acc
  | c :: cs, acc =>
    match digit c with
    | some d => readDigits base digit cs (acc * base + d)
    | none => none

/-- An operand: a hexadecimal number `0xHH` or a decimal number (rule R82). -/
def readNumber (l : List Char) : Option Nat :=
  match l with
  | '0' :: 'x' :: c :: cs => readDigits 16 hexDigit (c :: cs) 0
  | c :: cs => readDigits 10 decDigit (c :: cs) 0
  | [] => none

/-- The parts of a list of characters between commas. -/
def splitCommas : List Char → List Char → List (List Char)
  | [], part => [part.reverse]
  | c :: cs, part => if c = ',' then part.reverse :: splitCommas cs [] else splitCommas cs (c :: part)

/-- Operands separated by commas, each trimmed; a blank text is no operand at all. -/
def readOperands (l : List Char) : Option (List Nat) :=
  if trimBlanks l = [] then some []
  else (splitCommas l []).mapM fun p => readNumber (trimBlanks p)

/-- The mnemonics as rule R73 writes them, in upper case (rule R82). -/
def mnemonicNames : List (List Char × Mnemonic) :=
  [(['N', 'O', 'P'], .NOP), (['R', 'S', 'T'], .RST),
   (['S', 'E', 'Q', '_', 'S', 'E', 'T'], .SEQ_SET), (['S', 'E', 'Q', '_', 'I', 'N', 'C'], .SEQ_INC),
   (['T', 'X', '_', 'C', 'L', 'R'], .TX_CLR), (['T', 'X', '_', 'P', 'U', 'T'], .TX_PUT),
   (['T', 'X', '_', 'F', 'R', 'A', 'M', 'E'], .TX_FRAME), (['T', 'X', '_', 'P', 'O', 'P'], .TX_POP),
   (['R', 'X', '_', 'A', 'R', 'M'], .RX_ARM), (['R', 'X', '_', 'P', 'U', 'S', 'H'], .RX_PUSH),
   (['R', 'X', '_', 'G', 'E', 'T'], .RX_GET), (['R', 'D'], .RD)]

/-- A pseudo-command from its name as rule R83 writes it and its operands. -/
def readPseudo (name : List Char) (ops : List Nat) : Option Pseudo :=
  if name = ['T', 'X', '_', 'L', 'O', 'A', 'D'] then some (.txLoad ops)
  else if name = ['R', 'X', '_', 'F', 'E', 'E', 'D'] then some (.rxFeed ops)
  else if name = ['R', 'X', '_', 'C', 'H', 'E', 'C', 'K'] then some (.rxCheck ops)
  else if ops ≠ [] then none
  else if name = ['T', 'X', '_', 'E', 'M', 'I', 'T'] then some .txEmit
  else if name = ['R', 'D', '_', 'S', 'T', 'A', 'T', 'U', 'S'] then some .rdStatus
  else if name = ['R', 'D', '_', 'R', 'E', 'S', 'U', 'L', 'T'] then some .rdResult
  else if name = ['R', 'D', '_', 'E', 'R', 'R'] then some .rdErr
  else none

/-- The words of one line of text: none for an assembly error, no word for a blank or comment line
(rules R82, R83). -/
def assembleText (line : List Char) : Option (List CommandWord) :=
  let body := trimBlanks (stripComment line)
  if body = [] then some []
  else
    let name := body.takeWhile fun c => !isBlank c
    match readOperands (body.drop name.length) with
    | none => none
    | some ops =>
      match mnemonicNames.lookup name with
      | some m =>
        match ops with
        | [] => (assembleLine ⟨m, none⟩).map fun w => [w]
        | [v] => (assembleLine ⟨m, some v⟩).map fun w => [w]
        | _ => none
      | none => (readPseudo name ops).bind assemblePseudo

end Sys2Proof.Machine
end

