-- ==== Sys2Proof/Safety.lean ====
section
/-! DEFINITION. What every reachable state satisfies, in the terms claims use: the invariants I1 to I7 of
rule R41 clause by clause, and what the rules say of a latched frame (rule R175) and of a received frame
(rules R30, R31, R32, R36, R131). Each is an abbreviation of a decidable proposition. -/

namespace Sys2Proof.Machine

/-- I1: TXBUF beyond TXCNT is zero (rules R24, R41). -/
abbrev State.PaddingZero (s : State) : Prop :=
  ∀ i : Fin 128, s.txcnt.toNat ≤ i.val → s.txbuf[i] = 0x00

/-- I2: TXACT = 1 implies TXPOS <= 131; TXACT = 0 implies TXPOS is 0 or 132 (rules R25, R26, R41). -/
abbrev State.EmissionPosition (s : State) : Prop :=
  (s.txact = true → s.txpos.toNat ≤ 131) ∧
  (s.txact = false → s.txpos.toNat = 0 ∨ s.txpos.toNat = 132)

/-- I3: RXACT and RXDONE are never both 1 (rules R30, R41). -/
abbrev State.ValidatorState (s : State) : Prop := ¬(s.rxact = true ∧ s.rxdone = true)

/-- I4: RXDONE = 1 if and only if RESULT is not 0 (rule R41). -/
abbrev State.DoneHasResult (s : State) : Prop := s.rxdone = true ↔ s.result ≠ 0x00

/-- I5: RXACT = 1 implies RXPOS <= 131 and RESULT = 0 (rule R41). -/
abbrev State.ArmedPosition (s : State) : Prop :=
  s.rxact = true → s.rxpos.toNat ≤ 131 ∧ s.result = 0x00

/-- The payload bytes of the current frame received so far: those RX_PUSH wrote at positions 3 to 130,
which RXBUF holds from index 0 upward (rules R29, R32, R129). -/
def State.received (s : State) : List Byte := s.rxbuf.toList.take (min s.rxpos.toNat 131 - 3)

/-- I6: RXACT = 1 implies RXSUM is the sum of the payload bytes received so far (rule R41). -/
abbrev State.RunningSum (s : State) : Prop := s.rxact = true → s.rxsum = sumBytes s.received

/-- I7: ERR bits 7:5 are 0, RESULT is in 0..6, TXCNT is in 0..128 (rule R41). -/
abbrev State.Ranges (s : State) : Prop :=
  s.err &&& 0xE0 = 0x00 ∧ s.result.toNat ≤ 6 ∧ s.txcnt.toNat ≤ 128

/-- The invariants of rule R41 together. -/
abbrev State.Inv (s : State) : Prop :=
  s.PaddingZero ∧ s.EmissionPosition ∧ s.ValidatorState ∧ s.DoneHasResult ∧ s.ArmedPosition ∧
  s.RunningSum ∧ s.Ranges

/-- The payload of a frame in flight matches its latched checksum (rule R175). -/
abbrev State.LatchedChecksum (s : State) : Prop := s.txact = true → s.txsum = checksum s.txbuf

/-- A validator that is IDLE has not been armed since reset: all its registers hold their reset values
(rules R29, R30, R33, R35, R36, R42). -/
abbrev State.IdleFresh (s : State) : Prop :=
  s.rxact = false → s.rxdone = false →
    s.rxbuf = Vector.replicate 128 0x00 ∧ s.rxpos = 0x00 ∧ s.rxsum = 0x00 ∧ s.result = 0x00 ∧
    s.rxhdr = 0x00 ∧ s.rxseq = 0x00 ∧ s.rxcmp = 0x00 ∧ s.rxck = 0x00 ∧ s.rxexp = 0x00 ∧ s.chkseq = false

/-- A capture register the current frame has not reached reads 0x00 (rule R36). -/
abbrev State.CapturesUnreached (s : State) : Prop :=
  (s.rxpos.toNat < 1 → s.rxhdr = 0x00) ∧ (s.rxpos.toNat < 2 → s.rxseq = 0x00) ∧
  (s.rxpos.toNat < 3 → s.rxcmp = 0x00) ∧ (s.rxpos.toNat < 132 → s.rxck = 0x00)

/-- RXSUM sums the payload bytes of the current frame in every state, and never the header, sequence,
complement or checksum byte (rule R32). -/
abbrev State.SumOfReceived (s : State) : Prop := s.rxsum = sumBytes s.received

/-- The stages a frame has passed while the validator is still ARMED: a header byte once taken was SOH,
and a complement byte once taken passed both checks of rule R128. -/
abbrev State.StagesPassed (s : State) : Prop :=
  s.rxact = true →
    (1 ≤ s.rxpos.toNat → s.rxhdr = Config.soh) ∧
    (3 ≤ s.rxpos.toNat → s.rxcmp = 0xFF - s.rxseq ∧ (s.chkseq = true → s.rxseq = s.rxexp))

/-- The sequence checks of rule R128 passed. -/
abbrev State.SequencePassed (s : State) : Prop :=
  s.rxhdr = 0x01 ∧ s.rxcmp = 0xFF - s.rxseq ∧ (s.chkseq = true → s.rxseq = s.rxexp)

/-- What each verdict says of the captured bytes, and how many bytes the frame took (rules R31, R131). -/
abbrev State.VerdictMeans (s : State) : Prop :=
  s.rxdone = true →
    (s.result = 0x02 ∧ s.rxpos.toNat = 1 ∧ s.rxhdr = 0x04) ∨
    (s.result = 0x03 ∧ s.rxpos.toNat = 1 ∧ s.rxhdr ≠ 0x01 ∧ s.rxhdr ≠ 0x04) ∨
    (s.result = 0x04 ∧ s.rxpos.toNat = 3 ∧ s.rxhdr = 0x01 ∧ s.rxcmp ≠ 0xFF - s.rxseq) ∨
    (s.result = 0x05 ∧ s.rxpos.toNat = 3 ∧ s.rxhdr = 0x01 ∧ s.rxcmp = 0xFF - s.rxseq ∧
      s.chkseq = true ∧ s.rxseq ≠ s.rxexp) ∨
    (s.result = 0x01 ∧ s.rxpos.toNat = 132 ∧ s.SequencePassed ∧ s.rxck = s.rxsum) ∨
    (s.result = 0x06 ∧ s.rxpos.toNat = 132 ∧ s.SequencePassed ∧ s.rxck ≠ s.rxsum)

/-- Everything the rules say of the received frame in a reachable state. -/
abbrev State.FrameInv (s : State) : Prop :=
  s.IdleFresh ∧ s.CapturesUnreached ∧ s.SumOfReceived ∧ s.StagesPassed ∧ s.VerdictMeans

end Sys2Proof.Machine
end

