-- ==== Sys2Proof/Certificates/Slice0/Obligations.lean ====
section
/-! DEFINITION. The statements for the provers. Each docstring names the rules of the spec a statement
formalises; where one rests on a choice of the model, it names the assumption. -/

open Sys2Proof Sys2Proof.Machine

namespace Sys2Proof

/-! ### Words in the statements -/

/-- The words with opcode `op` (bits 15:12): legal exactly when RSV (bits 11:8) is 0 and IMM8 (bits 7:0)
is legal, and then decoded to the command given by IMM8. -/
def WordsOf (op : BitVec 4) (legal : Byte → Prop) (mk : Byte → Instr) : Prop :=
  ∀ w : CommandWord, w.extractLsb' 12 4 = op →
    (w.extractLsb' 8 4 = 0 → legal (w.extractLsb' 0 8) → decode w = .ok (mk (w.extractLsb' 0 8))) ∧
    (¬(w.extractLsb' 8 4 = 0 ∧ legal (w.extractLsb' 0 8)) → ∃ e, decode w = .error e)

/-- `SEQ_SET b`, word 0x20bb (rule R73). -/
def seqSetWord (b : Byte) : CommandWord := 0x20#8 ++ b

/-- `TX_PUT b`, word 0x50bb (rule R73). -/
def txPutWord (b : Byte) : CommandWord := 0x50#8 ++ b

/-- `RX_ARM m`, word 0x8000 or 0x8001 (rule R73). -/
def rxArmWord (m : Bool) : CommandWord := if m then 0x8001 else 0x8000

/-- `RX_PUSH b`, word 0x90bb (rule R73). -/
def rxPushWord (b : Byte) : CommandWord := 0x90#8 ++ b

/-- The rows of rule R73: mnemonic, match, mask, operand class. -/
def opcodeMap : List (Mnemonic × CommandWord × CommandWord × OperandClass) :=
  [(.NOP, 0x0000, 0xFFFF, .none), (.RST, 0x1000, 0xFFFF, .none),
   (.SEQ_SET, 0x2000, 0xFF00, .byte), (.SEQ_INC, 0x3000, 0xFFFF, .none),
   (.TX_CLR, 0x4000, 0xFFFF, .none), (.TX_PUT, 0x5000, 0xFF00, .byte),
   (.TX_FRAME, 0x6000, 0xFFFF, .none), (.TX_POP, 0x7000, 0xFFFF, .none),
   (.RX_ARM, 0x8000, 0xFFFE, .mode), (.RX_PUSH, 0x9000, 0xFF00, .byte),
   (.RX_GET, 0xA000, 0xFF80, .index), (.RD, 0xB000, 0xFFF0, .selector)]

/-- The mnemonic of a legal word, none for an illegal one. -/
def mnemonicOf (w : CommandWord) : Option Mnemonic := (decode w).toOption.map Instr.mnemonic

/-- How many of the 65,536 words have a property: the sum, over the high bytes, of how many low bytes make
such a word. -/
def countWords (p : CommandWord → Bool) : Nat :=
  ((List.range 256).map fun hi =>
    (List.range 256).countP fun lo => p (BitVec.ofNat 8 hi ++ BitVec.ofNat 8 lo)).sum

namespace Machine

/-! ### States in the statements -/

/-- Every register holds the reset value of rule R42's table. -/
def AtResetValues (s : State) : Prop :=
  s.seq = 0x01 ∧ (∀ i : Fin 128, s.txbuf[i] = 0x00) ∧ s.txcnt = 0 ∧ s.txpos = 0 ∧ s.txseq = 0x00 ∧
  s.txsum = 0x00 ∧ s.txact = false ∧ (∀ i : Fin 128, s.rxbuf[i] = 0x00) ∧ s.rxpos = 0 ∧
  s.rxsum = 0x00 ∧ s.result = 0x00 ∧ s.rxhdr = 0x00 ∧ s.rxseq = 0x00 ∧ s.rxcmp = 0x00 ∧
  s.rxck = 0x00 ∧ s.rxexp = 0x00 ∧ s.chkseq = false ∧ s.rxact = false ∧ s.rxdone = false ∧
  s.err = 0x00 ∧ s.resp = 0x00

/-- The STATUS byte bit by bit (rule R39). -/
def IsStatus (v : Byte) (s : State) : Prop :=
  v.getLsbD 0 = s.txact ∧ (v.getLsbD 1 = true ↔ s.txcnt.toNat = 128) ∧ v.getLsbD 2 = s.rxact ∧
  v.getLsbD 3 = s.rxdone ∧ (v.getLsbD 4 = true ↔ s.err &&& 0x1F ≠ 0x00) ∧ v.extractLsb' 5 3 = 0

/-- The byte selector `sel` reads, row by row of rule R40 (STATUS apart, rule R39). -/
def SelectorReads (sel : Nat) (v : Byte) (s : State) : Prop :=
  match sel with
  | 0x0 => IsStatus v s
  | 0x1 => v = s.seq
  | 0x2 => v = s.txcnt
  | 0x3 => v = s.txpos
  | 0x4 => v = s.txseq
  | 0x5 => v = s.txsum
  | 0x6 => v = s.rxpos
  | 0x7 => v = s.rxsum
  | 0x8 => v = s.result
  | 0x9 => v = s.rxhdr
  | 0xA => v = s.rxseq
  | 0xB => v = s.rxcmp
  | 0xC => v = s.rxck
  | 0xD => v = s.rxexp
  | 0xE => (∀ k, k < 5 → v.getLsbD k = s.err.getLsbD k) ∧ v.extractLsb' 5 3 = 0
  | 0xF => v.getLsbD 0 = s.chkseq ∧ v.extractLsb' 1 7 = 0
  | _ => False

/-- F(k) of rule R107 over a sequence number, a payload and a checksum. -/
def frameAt (seq : Byte) (payload : Buffer) (sum : Byte) (k : Nat) : Byte :=
  if k = 0 then 0x01
  else if k = 1 then seq
  else if k = 2 then 0xFF - seq
  else if k ≤ 130 then payload[k - 3]?.getD 0x00
  else sum

/-- The sum of a buffer's 128 bytes modulo 256 (rules R28, R100, R105). -/
def payloadSum (p : Buffer) : Byte := BitVec.ofNat 8 ((∑ i : Fin 128, (p[i]).toNat) % 256)

/-- The ERR bits a command word raises in a state: the table of rule R150 with the priorities of rules
R155 and R156. -/
def raisedBits (w : CommandWord) (s : State) : Byte :=
  match decode w with
  | .error _ => 0x01
  | .ok (.txPut _) => if s.txact then 0x04 else if s.txcnt.toNat = 128 then 0x02 else 0x00
  | .ok .txPop => if s.txact then 0x00 else 0x08
  | .ok (.rxPush _) => if s.rxact then 0x00 else 0x10
  | .ok _ => 0x00

/-- Two states agree on SEQ and on every register and buffer of the framer. -/
def SameFramer (s t : State) : Prop :=
  s.seq = t.seq ∧ s.txbuf = t.txbuf ∧ s.txcnt = t.txcnt ∧ s.txpos = t.txpos ∧ s.txseq = t.txseq ∧
  s.txsum = t.txsum ∧ s.txact = t.txact

/-- Two states agree on SEQ and on every register and buffer of the validator. -/
def SameValidator (s t : State) : Prop :=
  s.seq = t.seq ∧ s.rxbuf = t.rxbuf ∧ s.rxpos = t.rxpos ∧ s.rxsum = t.rxsum ∧ s.result = t.result ∧
  s.rxhdr = t.rxhdr ∧ s.rxseq = t.rxseq ∧ s.rxcmp = t.rxcmp ∧ s.rxck = t.rxck ∧ s.rxexp = t.rxexp ∧
  s.chkseq = t.chkseq ∧ s.rxact = t.rxact ∧ s.rxdone = t.rxdone

end Machine

end Sys2Proof

/-! ### Encoding -/

/-- Decode and encode agree on every well-formed instruction, with every operand value its class admits (30_encoding.md
sections 2 to 4). -/
def Obligations.DecodeOfEncodeIsTheInstruction : Prop :=
  ∀ i : Instr, i.wf = true → decode (encode i) = .ok i

/-- A legal word has one meaning, and encoding it gives the word back (30_encoding.md sections 3, 4). -/
def Obligations.EncodeOfDecodeIsTheWord : Prop :=
  ∀ (w : CommandWord) (i : Instr), decode w = .ok i → encode i = w

/-- Rule R73: the rows, with their masks, matches and operand classes; a word is command X exactly when
it matches row X; the operand bits are IMM8; the rows do not overlap; words 11xx… are illegal. -/
def Obligations.OpcodeMapSelectsTheCommand : Prop :=
  (∀ m : Mnemonic, ∃ mt mk c, (m, mt, mk, c) ∈ opcodeMap) ∧
  (∀ m mt mk c, (m, mt, mk, c) ∈ opcodeMap →
    m.operandClass = c ∧
    ∀ w : CommandWord, (w &&& mk = mt ↔ ∃ i, decode w = .ok i ∧ i.mnemonic = m)) ∧
  (∀ (w : CommandWord) (i : Instr), decode w = .ok i → i.imm8 = w.extractLsb' 0 8) ∧
  (∀ m mt mk c m' mt' mk' c', (m, mt, mk, c) ∈ opcodeMap → (m', mt', mk', c') ∈ opcodeMap → m ≠ m' →
    ∀ w : CommandWord, ¬(w &&& mk = mt ∧ w &&& mk' = mt')) ∧
  (∀ w : CommandWord, w &&& 0xC000 = 0xC000 → ∃ e, decode w = .error e)

/-- Rule R80: the illegal words are those of clauses (a) to (f), and an illegal word sets ERR bit 0 and
changes nothing else. -/
def Obligations.IllegalWordsRaiseIllegal : Prop :=
  ∀ w : CommandWord,
    ((∃ e, decode w = .error e) ↔
      (w.extractLsb' 12 4 = 0xC ∨ w.extractLsb' 12 4 = 0xD ∨ w.extractLsb' 12 4 = 0xE ∨
        w.extractLsb' 12 4 = 0xF) ∨
      w.extractLsb' 8 4 ≠ 0 ∨
      ((w.extractLsb' 12 4 = 0x0 ∨ w.extractLsb' 12 4 = 0x1 ∨ w.extractLsb' 12 4 = 0x3 ∨
        w.extractLsb' 12 4 = 0x4 ∨ w.extractLsb' 12 4 = 0x6 ∨ w.extractLsb' 12 4 = 0x7) ∧
        w.extractLsb' 0 8 ≠ 0) ∨
      (w.extractLsb' 12 4 = 0x8 ∧ w.extractLsb' 1 7 ≠ 0) ∨
      (w.extractLsb' 12 4 = 0xA ∧ w.getLsbD 7 = true) ∨
      (w.extractLsb' 12 4 = 0xB ∧ w.extractLsb' 4 4 ≠ 0)) ∧
    ∀ s : State, (∃ e, decode w = .error e) → command w s = .next { s with err := s.err ||| 0x01 }

/-- Rule R76: exactly 920 of the 65,536 words are legal, with the count of each command. -/
def Obligations.LegalWordsNumber920 : Prop :=
  countWords (fun w => (mnemonicOf w).isSome) = 920 ∧
  countWords (fun w => (mnemonicOf w).isNone) = 64616 ∧
  (∀ m : Mnemonic, m = .SEQ_SET ∨ m = .TX_PUT ∨ m = .RX_PUSH →
    countWords (fun w => decide (mnemonicOf w = some m)) = 256) ∧
  countWords (fun w => decide (mnemonicOf w = some .RX_GET)) = 128 ∧
  countWords (fun w => decide (mnemonicOf w = some .RD)) = 16 ∧
  countWords (fun w => decide (mnemonicOf w = some .RX_ARM)) = 2 ∧
  (∀ m : Mnemonic, m = .NOP ∨ m = .RST ∨ m = .SEQ_INC ∨ m = .TX_CLR ∨ m = .TX_FRAME ∨ m = .TX_POP →
    countWords (fun w => decide (mnemonicOf w = some m)) = 1)

/-- The assembler gives every instruction its word, and gives a word to no line but an instruction's
(30_encoding.md section 6). -/
def Obligations.AssemblerGivesTheInstructionsWord : Prop :=
  (∀ i : Instr, assembleLine i.sourceLine = some (encode i)) ∧
  (∀ (l : SourceLine) (w : CommandWord), assembleLine l = some w →
    ∃ i : Instr, i.sourceLine = l ∧ decode w = .ok i)

/-- Words written out from rule R73's encodings, one for each command (examples of rules R90 to R142). -/
def Obligations.WrittenOutWordsDecode : Prop :=
  decode 0b0000000000000000 = .ok .nop ∧
  decode 0b0001000000000000 = .ok .rst ∧
  decode 0b0010000000000001 = .ok (.seqSet 0x01) ∧
  decode 0b0011000000000000 = .ok .seqInc ∧
  decode 0b0100000000000000 = .ok .txClr ∧
  decode 0b0101000001000001 = .ok (.txPut 0x41) ∧
  decode 0b0110000000000000 = .ok .txFrame ∧
  decode 0b0111000000000000 = .ok .txPop ∧
  decode 0b1000000000000001 = .ok (.rxArm true) ∧
  decode 0b1001000000000001 = .ok (.rxPush 0x01) ∧
  decode 0b1010000000001001 = .ok (.rxGet 9) ∧
  decode 0b1011000000000001 = .ok (.rd .seq)

/-- Rule R83: what each pseudo-command expands to, as words. -/
def Obligations.PseudoCommandsExpand : Prop :=
  (∀ bs : List Byte, 1 ≤ bs.length → bs.length ≤ 128 →
    assemblePseudo (.txLoad (bs.map BitVec.toNat)) = some (0x4000 :: bs.map txPutWord)) ∧
  assemblePseudo .txEmit = some (List.replicate 132 0x7000) ∧
  (∀ bs : List Byte, 1 ≤ bs.length →
    assemblePseudo (.rxFeed (bs.map BitVec.toNat)) = some (bs.map rxPushWord)) ∧
  (∀ bs : List Byte, bs.length = 132 →
    assemblePseudo (.rxCheck (bs.map BitVec.toNat)) = some (0x8001 :: bs.map rxPushWord)) ∧
  assemblePseudo .rdStatus = some [0xB000] ∧
  assemblePseudo .rdResult = some [0xB008] ∧
  assemblePseudo .rdErr = some [0xB00E]

/-! ### The step -/

/-- A step runs the decoded command: with the next word on the port legal it is exec of that command, with
it illegal it raises ILLEGAL, and with none it holds the state (assumptions 1 and 2: the model's command
stream and its idle step). -/
def Obligations.StepRunsTheDecodedCommand : Prop :=
  (∀ (s : State) (w : CommandWord) (rest : List CommandWord) (i : Instr),
    s.pending = w :: rest → decode w = .ok i → step s = exec i { s with pending := rest }) ∧
  (∀ (s : State) (w : CommandWord) (rest : List CommandWord) (e : IllegalWord),
    s.pending = w :: rest → decode w = .error e →
    step s = .next { s with pending := rest, err := s.err ||| 0x01 }) ∧
  (∀ s : State, s.pending = [] → step s = .next s)

/-- Steps follow the stream: as many steps as there are pending words do what applying those words in
order does, whatever stands on the port, and one response is seen for each word (rules R12, R58, R180;
assumption 1). -/
def Obligations.StepsFollowTheCommandStream : Prop :=
  ∀ (ws : List CommandWord) (s : State),
    match run ws s with
    | .next (t, resps) =>
      core.run ws.length { s with pending := ws } = .next { t with pending := [] } ∧
      t.pending = s.pending ∧ resps.length = ws.length
    | .fault f => core.run ws.length { s with pending := ws } = .fault f
    | .refused r => core.run ws.length { s with pending := ws } = .refused r

/-! ### What each command does -/

/-- Rule R140: NOP. -/
def Obligations.NopChangesNothing : Prop :=
  WordsOf 0x0 (· = 0x00) (fun _ => .nop) ∧ ∀ s : State, exec .nop s = .next s

/-- RST and power-on reset give exactly the values of rule R42's table (10_state.md section 7, 43_system.md rule
R141). That the words the host has still to issue stay is the model's choice, not the spec's: `pending` is the
model's own field (assumption 1, DESIGN CHOICE). -/
def Obligations.RstGivesThePowerOnState : Prop :=
  WordsOf 0x1 (· = 0x00) (fun _ => .rst) ∧
  AtResetValues State.reset ∧
  ∀ s : State, ∃ t, exec .rst s = .next t ∧ AtResetValues t ∧ t.pending = s.pending ∧
    t = { State.reset with pending := s.pending }

/-- Rule R90: SEQ_SET. -/
def Obligations.SeqSetLoadsSeq : Prop :=
  WordsOf 0x2 (fun _ => True) (fun imm => .seqSet imm) ∧
  ∀ (b : Byte) (s : State), exec (.seqSet b) s = .next { s with seq := b }

/-- Rule R91: SEQ_INC. -/
def Obligations.SeqIncWrapsThroughZero : Prop :=
  WordsOf 0x3 (· = 0x00) (fun _ => .seqInc) ∧
  (∀ s : State, exec .seqInc s = .next { s with seq := BitVec.ofNat 8 ((s.seq.toNat + 1) % 256) }) ∧
  (∀ s : State, s.seq = 0xFF → exec .seqInc s = .next { s with seq := 0x00 })

/-- Rule R101: TX_CLR, after which STATUS.TXFULL reads 0. -/
def Obligations.TxClrZeroesTheFramer : Prop :=
  WordsOf 0x4 (· = 0x00) (fun _ => .txClr) ∧
  ∀ s : State, ∃ t, exec .txClr s = .next t ∧
    t = { s with
      txbuf := Vector.replicate 128 0x00, txcnt := 0, txpos := 0, txseq := 0x00, txsum := 0x00,
      txact := false } ∧
    ∀ v, IsStatus v t → v.getLsbD 1 = false

/-- Rules R103 and R156: TX_PUT appends, or raises TXBUSY or, with no frame in flight, TXFULL. States with
TXCNT > 128 are those rule R41 calls not reachable; see FaultsOnlyOutsideTheRanges. -/
def Obligations.TxPutAppendsOrRefuses : Prop :=
  WordsOf 0x5 (fun _ => True) (fun imm => .txPut imm) ∧
  (∀ (b : Byte) (s : State), s.txact = true →
    exec (.txPut b) s = .next { s with err := s.err ||| 0x04 }) ∧
  (∀ (b : Byte) (s : State), s.txact = false → s.txcnt.toNat = 128 →
    exec (.txPut b) s = .next { s with err := s.err ||| 0x02 }) ∧
  (∀ (b : Byte) (s : State) (h : s.txcnt.toNat < 128), s.txact = false →
    ∃ t, exec (.txPut b) s = .next t ∧
      t = { s with
        txbuf := s.txbuf.set s.txcnt.toNat b h, txcnt := BitVec.ofNat 8 (s.txcnt.toNat + 1) } ∧
      ∀ v, IsStatus v t → (v.getLsbD 1 = true ↔ s.txcnt.toNat = 127))

/-- Rule R105: TX_FRAME latches SEQ and the checksum of all 128 bytes, in every state. -/
def Obligations.TxFrameLatchesTheFrame : Prop :=
  WordsOf 0x6 (· = 0x00) (fun _ => .txFrame) ∧
  ∀ s : State, exec .txFrame s =
    .next { s with txseq := s.seq, txsum := payloadSum s.txbuf, txpos := 0, txact := true }

/-- Rule R107: the frame byte function, position by position. -/
def Obligations.FrameBytesFollowTheLayout : Prop :=
  ∀ (s : State) (k : Fin 132),
    (k.val = 0 → frameByte s k = 0x01) ∧
    (k.val = 1 → frameByte s k = s.txseq) ∧
    (k.val = 2 → frameByte s k = 0xFF - s.txseq) ∧
    (∀ i : Fin 128, k.val = 3 + i.val → frameByte s k = s.txbuf[i]) ∧
    (k.val = 131 → frameByte s k = s.txsum)

/-- Rule R108: TX_POP emits F(TXPOS) and advances, ending the frame at the 132nd byte; with no frame it
raises TXEMPTY with RESP 0x00. States with TXACT = 1 and TXPOS > 131 are those rule R41 calls not
reachable; see FaultsOnlyOutsideTheRanges. -/
def Obligations.TxPopEmitsTheNextByte : Prop :=
  WordsOf 0x7 (· = 0x00) (fun _ => .txPop) ∧
  (∀ s : State, s.txact = false →
    exec .txPop s = .next { s with resp := 0x00, err := s.err ||| 0x08 }) ∧
  (∀ s : State, s.txact = true → s.txpos.toNat < 131 →
    exec .txPop s = .next { s with
      resp := frameAt s.txseq s.txbuf s.txsum s.txpos.toNat
      txpos := BitVec.ofNat 8 (s.txpos.toNat + 1) }) ∧
  (∀ s : State, s.txact = true → s.txpos.toNat = 131 →
    exec .txPop s = .next { s with resp := s.txsum, txpos := 132, txact := false })

/-- Rule R121: RX_ARM, in every state; RXBUF is not changed. -/
def Obligations.RxArmStartsAFrame : Prop :=
  WordsOf 0x8 (fun imm => imm.extractLsb' 1 7 = 0) (fun imm => .rxArm (imm.getLsbD 0)) ∧
  ∀ (m : Bool) (s : State), exec (.rxArm m) s = .next { s with
    rxact := true, rxdone := false, result := 0x00, rxpos := 0, rxsum := 0x00, rxhdr := 0x00,
    rxseq := 0x00, rxcmp := 0x00, rxck := 0x00, rxexp := s.seq, chkseq := m }

/-- RX_PUSH's words, and its refusal while the validator is IDLE or DONE (rules R124, R150; the stages
are the statements that follow). -/
def Obligations.RxPushRefusedUnlessArmed : Prop :=
  WordsOf 0x9 (fun _ => True) (fun imm => .rxPush imm) ∧
  ∀ (b : Byte) (s : State), s.rxact = false →
    exec (.rxPush b) s = .next { s with err := s.err ||| 0x10 }

/-- Rule R126: the header byte, position 0. -/
def Obligations.HeaderByteDecides : Prop :=
  ∀ (b : Byte) (s : State), s.rxact = true → s.rxpos.toNat = 0 →
    (b = 0x01 → exec (.rxPush b) s = .next { s with rxpos := 1, rxhdr := b }) ∧
    (b = 0x04 → exec (.rxPush b) s = .next { s with
      rxpos := 1, rxhdr := b, result := 0x02, rxact := false, rxdone := true }) ∧
    (b ≠ 0x01 → b ≠ 0x04 → exec (.rxPush b) s = .next { s with
      rxpos := 1, rxhdr := b, result := 0x03, rxact := false, rxdone := true })

/-- Rule R127: the sequence byte, position 1, is stored and gives no verdict. -/
def Obligations.SequenceByteIsStored : Prop :=
  ∀ (b : Byte) (s : State), s.rxact = true → s.rxpos.toNat = 1 →
    exec (.rxPush b) s = .next { s with rxpos := 2, rxseq := b }

/-- Rule R128: the complement byte, position 2, with consistency checked before continuity. -/
def Obligations.ComplementByteDecides : Prop :=
  ∀ (b : Byte) (s : State), s.rxact = true → s.rxpos.toNat = 2 →
    (b ≠ 0xFF - s.rxseq → exec (.rxPush b) s = .next { s with
      rxpos := 3, rxcmp := b, result := 0x04, rxact := false, rxdone := true }) ∧
    (b = 0xFF - s.rxseq → s.chkseq = true → s.rxseq ≠ s.rxexp → exec (.rxPush b) s = .next { s with
      rxpos := 3, rxcmp := b, result := 0x05, rxact := false, rxdone := true }) ∧
    (b = 0xFF - s.rxseq → (s.chkseq = false ∨ s.rxseq = s.rxexp) →
      exec (.rxPush b) s = .next { s with rxpos := 3, rxcmp := b })

/-- Rule R129: a payload byte, positions 3 to 130, is stored and summed and gives no verdict. -/
def Obligations.PayloadByteIsStoredAndSummed : Prop :=
  ∀ (b : Byte) (s : State) (i : Fin 128), s.rxact = true → s.rxpos.toNat = 3 + i.val →
    exec (.rxPush b) s = .next { s with
      rxpos := BitVec.ofNat 8 (3 + i.val + 1)
      rxbuf := s.rxbuf.set i.val b
      rxsum := BitVec.ofNat 8 ((s.rxsum.toNat + b.toNat) % 256) }

/-- Rule R130: the checksum byte, position 131. -/
def Obligations.ChecksumByteDecides : Prop :=
  ∀ (b : Byte) (s : State), s.rxact = true → s.rxpos.toNat = 131 →
    (b = s.rxsum → exec (.rxPush b) s = .next { s with
      rxpos := 132, rxck := b, result := 0x01, rxact := false, rxdone := true }) ∧
    (b ≠ s.rxsum → exec (.rxPush b) s = .next { s with
      rxpos := 132, rxck := b, result := 0x06, rxact := false, rxdone := true })

/-- Rule R133: RX_GET reads RXBUF in every validator state. -/
def Obligations.RxGetReadsThePayload : Prop :=
  WordsOf 0xA (fun imm => imm.getLsbD 7 = false) (fun imm => .rxGet (imm.setWidth 7)) ∧
  ∀ (i : BufIndex) (s : State), exec (.rxGet i) s = .next { s with resp := s.rxbuf[i.toNat]'i.isLt }

/-- Rules R40 and R142: RD puts the selected view in RESP and changes nothing else; the views STATUS and
CTRL are those of rules R39 and R35, and ERR bits 7:5 read 0. STATUS.ERRANY is 1 exactly when selector 0xE
reads non-zero, which in every state of rule R41 is ERR != 0 (assumption 6 for the others). -/
def Obligations.RdReadsTheSelectedView : Prop :=
  WordsOf 0xB (fun imm => imm.extractLsb' 4 4 = 0)
    (fun imm => .rd (RegView.ofSelector (imm.setWidth 4))) ∧
  (∀ v : RegView, ∃ sel : SelectorCode, RegView.ofSelector sel = v) ∧
  ∀ (sel : SelectorCode) (s : State), ∃ v, exec (.rd (RegView.ofSelector sel)) s =
    .next { s with resp := v } ∧ SelectorReads sel.toNat v s

/-- The model stops only where rule R41 says no reachable state is and a rule would index a buffer or a
frame outside its range (the model's choice, assumption 5), and never refuses. -/
def Obligations.FaultsOnlyOutsideTheRanges : Prop :=
  ∀ (i : Instr) (s : State),
    (∀ f, exec i s = .fault f ↔
      (∃ b, i = .txPut b ∧ s.txact = false ∧ 128 < s.txcnt.toNat ∧ f = .txPutIndexOutside) ∨
      (i = .txPop ∧ s.txact = true ∧ 131 < s.txpos.toNat ∧ f = .txPopPositionOutside) ∨
      (∃ b, i = .rxPush b ∧ s.rxact = true ∧ 131 < s.rxpos.toNat ∧ f = .rxPushPositionOutside)) ∧
    ∀ r, exec i s ≠ .refused r

/-! ### Invariants -/

/-- The reset state satisfies the invariants of rule R41 and the frame invariants. -/
def Obligations.ResetSatisfiesTheInvariants : Prop :=
  ∀ ws : List CommandWord,
    let s := { State.reset with pending := ws }
    s.Inv ∧ s.LatchedChecksum ∧ s.FrameInv

/-- Every step keeps I1 to I7 of rule R41. -/
def Obligations.EveryStepKeepsTheInvariants : Prop :=
  ∀ s t : State, s.Inv → step s = .next t → t.Inv

/-- Rule R41: every state reachable from reset by any command words satisfies I1 to I7. -/
def Obligations.ReachableStatesSatisfyTheInvariants : Prop :=
  ∀ (ws : List CommandWord) (t : State) (resps : List Byte),
    run ws State.reset = .next (t, resps) → t.Inv

/-- Under the invariants of rule R41 no step stops: XFV performs every command word in every such state,
whatever ERR holds (rules R151, R161; 60_exceptions.md sections 1 and 6). -/
def Obligations.NoStepStopsUnderTheInvariants : Prop :=
  ∀ s : State, s.Inv → ∃ t, step s = .next t

/-- A run from reset performs every command word the host issues and shows one response for each (rules
R41, R161, R180). -/
def Obligations.RunsFromResetPerformEveryWord : Prop :=
  ∀ ws : List CommandWord, ∃ t resps,
    run ws State.reset = .next (t, resps) ∧ resps.length = ws.length

/-- Every step keeps the payload of a frame in flight equal to its latched checksum (rule R175). -/
def Obligations.PayloadMatchesTheLatchedChecksum : Prop :=
  ∀ s t : State, (s.txact = true → s.txsum = payloadSum s.txbuf) → step s = .next t →
    (t.txact = true → t.txsum = payloadSum t.txbuf)

/-- Every step keeps what the rules say of a received frame: an IDLE validator is fresh, unreached capture
registers read 0x00, RXSUM sums the payload received and nothing else, and each verdict means what rule
R131 says of the captured bytes, after 1, 3 or 132 of them (rules R30, R31, R32, R36, R131). -/
def Obligations.EveryStepKeepsTheFrameInvariants : Prop :=
  ∀ s t : State, s.Inv → s.FrameInv → step s = .next t → t.FrameInv

/-- Every state reachable from reset satisfies the frame invariants (rules R30, R31, R32, R36, R131) and the
checksum invariant of rule R175. -/
def Obligations.ReachableVerdictsMeanWhatTheySay : Prop :=
  ∀ (ws : List CommandWord) (t : State) (resps : List Byte),
    run ws State.reset = .next (t, resps) →
      t.FrameInv ∧ (t.txact = true → t.txsum = payloadSum t.txbuf)

/-! ### Rules about the whole machine -/

/-- Rule R92: XFV never changes SEQ by itself. -/
def Obligations.OnlySeqSetSeqIncRstWriteSeq : Prop :=
  ∀ (w : CommandWord) (s t : State), command w s = .next t →
    (∀ b, w ≠ seqSetWord b) → w ≠ 0x3000 → w ≠ 0x1000 → t.seq = s.seq

/-- The "written by" column of rule R20's table: every register, ERR and RESP among them, stays under a command
that is not listed for it. The last clause, that the host's stream stays under every command, is the model's
choice, not the spec's: `pending` is the model's own field (assumption 1, DESIGN CHOICE). -/
def Obligations.RegistersWrittenOnlyByTheirCommands : Prop :=
  ∀ (i : Instr) (s t : State), exec i s = .next t →
    (i.mnemonic ∉ [Mnemonic.SEQ_SET, .SEQ_INC, .RST] → t.seq = s.seq) ∧
    (i.mnemonic ∉ [Mnemonic.TX_CLR, .TX_PUT, .RST] → t.txbuf = s.txbuf ∧ t.txcnt = s.txcnt) ∧
    (i.mnemonic ∉ [Mnemonic.TX_CLR, .TX_FRAME, .TX_POP, .RST] →
      t.txpos = s.txpos ∧ t.txact = s.txact) ∧
    (i.mnemonic ∉ [Mnemonic.TX_CLR, .TX_FRAME, .RST] → t.txseq = s.txseq ∧ t.txsum = s.txsum) ∧
    (i.mnemonic ∉ [Mnemonic.RX_PUSH, .RST] → t.rxbuf = s.rxbuf) ∧
    (i.mnemonic ∉ [Mnemonic.RX_ARM, .RX_PUSH, .RST] →
      t.rxpos = s.rxpos ∧ t.rxsum = s.rxsum ∧ t.result = s.result ∧ t.rxhdr = s.rxhdr ∧
      t.rxseq = s.rxseq ∧ t.rxcmp = s.rxcmp ∧ t.rxck = s.rxck ∧ t.rxact = s.rxact ∧
      t.rxdone = s.rxdone) ∧
    (i.mnemonic ∉ [Mnemonic.RX_ARM, .RST] → t.rxexp = s.rxexp ∧ t.chkseq = s.chkseq) ∧
    (i.mnemonic ∉ [Mnemonic.TX_PUT, .TX_POP, .RX_PUSH, .RST] → t.err = s.err) ∧
    (i.mnemonic ∉ [Mnemonic.TX_POP, .RX_GET, .RD, .RST] → t.resp = s.resp) ∧
    t.pending = s.pending

/-- Rule R38: which commands write RESP, and with what; every other command word leaves it, an illegal one
included. -/
def Obligations.RespWrittenOnlyByItsCommands : Prop :=
  ∀ (w : CommandWord) (s t : State), command w s = .next t →
    match decode w with
    | .ok .txPop =>
      t.resp = if s.txact then frameAt s.txseq s.txbuf s.txsum s.txpos.toNat else 0x00
    | .ok (.rxGet i) => t.resp = s.rxbuf[i.toNat]'i.isLt
    | .ok (.rd v) => SelectorReads v.selector t.resp s
    | .ok .rst => t.resp = 0x00
    | _ => t.resp = s.resp

/-- Rules R150, R155 and R156: the bits a command word raises are those of the table, ORed into ERR; one
that raises a bit changes only ERR and, for TXEMPTY, RESP. RST clears ERR. -/
def Obligations.ErrorsAreTheFiveCauses : Prop :=
  ∀ (w : CommandWord) (s t : State), command w s = .next t →
    (w ≠ 0x1000 → t.err = s.err ||| raisedBits w s) ∧
    (w = 0x1000 → t.err = 0x00) ∧
    (raisedBits w s ≠ 0x00 →
      t = { s with
        err := s.err ||| raisedBits w s
        resp := if raisedBits w s = 0x08 then 0x00 else s.resp }) ∧
    raisedBits w s ∈ [(0x00 : Byte), 0x01, 0x02, 0x04, 0x08, 0x10]

/-- Rule R153: a raised bit stays until RST, and raising it again changes nothing. -/
def Obligations.ErrBitsAreSticky : Prop :=
  (∀ (w : CommandWord) (s t : State), command w s = .next t →
    (w ≠ 0x1000 → ∀ k, s.err.getLsbD k = true → t.err.getLsbD k = true) ∧
    (w = 0x1000 → t.err = 0x00)) ∧
  (∀ (w : CommandWord) (s t : State), command w s = .next t → w ≠ 0x1000 →
    s.err ||| raisedBits w s = s.err → t.err = s.err) ∧
  AtResetValues State.reset

/-- A non-zero ERR stops, locks and changes no later command: what a command word does to every register
but ERR does not depend on ERR, the bytes RD reads from STATUS and ERR apart (rule R151). -/
def Obligations.ErrNeverBlocksACommand : Prop :=
  ∀ (w : CommandWord) (s t : State) (e : Byte), command w s = .next t →
    decode w ≠ .ok (.rd .status) → decode w ≠ .ok (.rd .err) →
    ∃ t', command w { s with err := e } = .next t' ∧ { t' with err := t.err } = t

/-- Rule R152: a verdict sets RESULT and RXDONE and no ERR bit. -/
def Obligations.VerdictsAreNotErrors : Prop :=
  ∀ (b : Byte) (s t : State), s.rxact = true → exec (.rxPush b) s = .next t →
    t.err = s.err ∧
    (t.rxact = false → t.rxdone = true ∧ t.result ∈ [(0x01 : Byte), 0x02, 0x03, 0x04, 0x05, 0x06]) ∧
    (t.rxact = true → t.rxdone = s.rxdone ∧ t.result = s.result)

/-- Rule R57: TX_POP is a read with side effects, and two return two successive frame bytes; RD and RX_GET
write RESP only and are idempotent. -/
def Obligations.ReadsAndTheirSideEffects : Prop :=
  (∀ s : State, s.txact = true → s.txpos.toNat < 131 →
    ∃ t, run [0x7000, 0x7000] s = .next (t,
        [frameAt s.txseq s.txbuf s.txsum s.txpos.toNat,
         frameAt s.txseq s.txbuf s.txsum (s.txpos.toNat + 1)]) ∧
      t.txpos.toNat = s.txpos.toNat + 2 ∧ (t.txact = false ↔ s.txpos.toNat = 130)) ∧
  (∀ (i : Instr) (s : State), i.mnemonic = .RD ∨ i.mnemonic = .RX_GET →
    ∃ v, exec i s = .next { s with resp := v } ∧
      exec i { s with resp := v } = .next { s with resp := v })

/-- Rule R120: the validator leaves ARMED only by a verdict, RX_ARM or reset, and does not re-arm
itself. -/
def Obligations.OneFramePerArming : Prop :=
  ∀ (w : CommandWord) (s t : State), command w s = .next t →
    (s.rxact = true → t.rxact = false →
      w = 0x1000 ∨ ((∃ b, w = rxPushWord b) ∧ t.rxdone = true ∧ t.result ≠ 0x00)) ∧
    (s.rxact = false → t.rxact = true → ∃ m, w = rxArmWord m)

/-- Rule R176: TX_FRAME and RX_ARM latch SEQ, and writing SEQ afterwards changes neither the frame being
emitted nor the number being checked. -/
def Obligations.SequenceNumbersAreLatched : Prop :=
  (∀ s : State, ∃ t, exec .txFrame s = .next t ∧ t.txseq = s.seq) ∧
  (∀ (m : Bool) (s : State), ∃ t, exec (.rxArm m) s = .next t ∧ t.rxexp = s.seq) ∧
  (∀ (i : Instr) (s : State), i.mnemonic = .SEQ_SET ∨ i.mnemonic = .SEQ_INC →
    ∃ t, exec i s = .next t ∧ t.rxexp = s.rxexp ∧ t.txpos = s.txpos ∧ t.txact = s.txact ∧
      ∀ k : Fin 132, frameByte t k = frameByte s k)

/-- The framer and the validator are independent datapaths that share only SEQ: what any command word
leaves in one of them depends on nothing of the other (rule R3; ERR and RESP belong to neither). -/
def Obligations.DatapathsShareOnlySeq : Prop :=
  ∀ (w : CommandWord) (s s' t t' : State), command w s = .next t → command w s' = .next t' →
    (SameFramer s s' → SameFramer t t') ∧ (SameValidator s s' → SameValidator t t')

/-- XFV has no state the host cannot observe (rule R44). Two states of rule R41 that every RD selector
reads alike, every RX_GET index reads alike, and whose next frames are alike are the same state, the
response port and the host's own stream apart. -/
def Obligations.NoHiddenState : Prop :=
  ∀ s t : State, s.Inv → t.Inv →
    (∀ (v : RegView) (a b : State), exec (.rd v) s = .next a → exec (.rd v) t = .next b →
      a.resp = b.resp) →
    (∀ (i : BufIndex) (a b : State), exec (.rxGet i) s = .next a → exec (.rxGet i) t = .next b →
      a.resp = b.resp) →
    (∀ a b : State, exec .txFrame s = .next a → exec .txFrame t = .next b →
      ∀ k : Fin 132, frameByte a k = frameByte b k) →
    s = { t with resp := s.resp, pending := s.pending }

/-- Rule R93: the laws of sequence arithmetic. -/
def Obligations.SequenceArithmeticLaws : Prop :=
  (∀ (k : Nat) (s : State), ∃ t resps, run (List.replicate k 0x3000) s = .next (t, resps) ∧
    t.seq.toNat = (s.seq.toNat + k) % 256) ∧
  (∀ n : Nat, 1 ≤ n → ∃ t resps,
    run (List.replicate (n - 1) 0x3000) State.reset = .next (t, resps) ∧ t.seq.toNat = n % 256) ∧
  (∀ s : State, s.seq.toNat ≤ 255 ∧ (complement s.seq).toNat = 255 - s.seq.toNat)

/-- Rule R106: the laws of the checksum TX_FRAME latches. -/
def Obligations.ChecksumLaws : Prop :=
  (∀ s t : State, exec .txFrame s = .next t →
    t.txsum.toNat = (∑ i : Fin 128, (s.txbuf[i]).toNat) % 256) ∧
  (∀ s s' t t' : State, s.txbuf = s'.txbuf → exec .txFrame s = .next t → exec .txFrame s' = .next t' →
    t.txsum = t'.txsum) ∧
  (∀ (s t t' : State) (i : Fin 128) (y : Byte), y ≠ s.txbuf[i] → exec .txFrame s = .next t →
    exec .txFrame { s with txbuf := s.txbuf.set i.val y } = .next t' →
    t'.txsum = t.txsum + (y - s.txbuf[i]) ∧ t'.txsum ≠ t.txsum) ∧
  (∀ s s' t t' : State, exec .txFrame s = .next t → exec .txFrame s' = .next t' →
    (∑ i : Fin 128, (s'.txbuf[i] - s.txbuf[i])) = 0 → t.txsum = t'.txsum) ∧
  (∀ (s s' t t' : State), s.txbuf.toList.Perm s'.txbuf.toList → exec .txFrame s = .next t →
    exec .txFrame s' = .next t' → t.txsum = t'.txsum)

/-- Rule R26: TXPOS counts the bytes popped since TX_FRAME and TXACT is 1 until the 132nd. -/
def Obligations.EmissionIsCountedByTxpos : Prop :=
  (∀ (s : State) (n : Nat), n ≤ 132 → ∃ t resps,
    run (0x6000 :: List.replicate n 0x7000) s = .next (t, resps) ∧ t.txpos.toNat = n ∧
      (t.txact = true ↔ n < 132)) ∧
  (∀ s : State, ∃ t, exec .txClr s = .next t ∧ t.txpos = 0 ∧ t.txact = false) ∧
  (∀ s : State, ∃ t, exec .rst s = .next t ∧ t.txpos = 0 ∧ t.txact = false) ∧
  State.reset.txpos = 0 ∧ State.reset.txact = false

/-! ### Whole frames -/

/-- Rule R109: the framer emits exactly the document's encode. From any state, TX_CLR, one TX_PUT for each
byte of p, SEQ_SET, TX_FRAME and 132 TX_POPs give the 132 bytes of the frame with p zero-padded, and TXCNT
counts the bytes of p alone. -/
def Obligations.FramerEmitsTheEncodedFrame : Prop :=
  ∀ (p : List Byte) (seq : Byte) (s : State), p.length ≤ 128 →
    let p' := p ++ List.replicate (128 - p.length) 0x00
    ∃ t before,
      run ([0x4000] ++ p.map txPutWord ++ [seqSetWord seq, 0x6000] ++ List.replicate 132 0x7000) s =
        .next (t, before ++ ([0x01, seq, 0xFF - seq] ++ p' ++
          [BitVec.ofNat 8 ((p'.map BitVec.toNat).sum % 256)])) ∧
      before.length = p.length + 3 ∧ t.txcnt.toNat = p.length ∧ t.txact = false ∧ t.err = s.err

/-- A retry emits the identical frame, and a TX_FRAME in mid emission restarts from byte 0 (rules R105,
R173, R178): after TX_FRAME and any number k of pops, TX_FRAME and 132 pops give the frame of the state
before. -/
def Obligations.RetryEmitsTheIdenticalFrame : Prop :=
  ∀ (s : State) (k : Nat), k ≤ 132 →
    let frame := (List.range 132).map (frameAt s.seq s.txbuf (payloadSum s.txbuf))
    ∃ t, run (0x6000 :: List.replicate k 0x7000 ++ 0x6000 :: List.replicate 132 0x7000) s =
      .next (t, s.resp :: frame.take k ++ ((s.resp :: frame.take k).getLastD 0x00) :: frame) ∧
      t.txbuf = s.txbuf ∧ t.seq = s.seq ∧ t.err = s.err

/-- Rule R131: each frame gets exactly one verdict, the one its bytes decide, after exactly 1, 3 or 132
pushed bytes and no earlier; the bytes that decide it are the captured ones, RXSUM and RXEXP. -/
def Obligations.EveryFrameGetsItsVerdict : Prop :=
  ∀ (f : Frame) (m : Bool) (s : State),
    let v := frameVerdict m s.seq f
    (v.bytesTaken = 1 ∨ v.bytesTaken = 3 ∨ v.bytesTaken = 132) ∧
    (∀ n, n < v.bytesTaken → ∃ t resps,
      run (rxArmWord m :: (f.toList.take n).map rxPushWord) s = .next (t, resps) ∧
      t.rxact = true ∧ t.rxdone = false ∧ t.result = 0x00 ∧ t.rxpos.toNat = n) ∧
    (∃ t resps,
      run (rxArmWord m :: (f.toList.take v.bytesTaken).map rxPushWord) s = .next (t, resps) ∧
      t.rxact = false ∧ t.rxdone = true ∧ t.result = v.code ∧ t.rxpos.toNat = v.bytesTaken ∧
      t.rxexp = s.seq ∧ t.chkseq = m ∧ t.rxhdr = f[0] ∧
      (3 ≤ v.bytesTaken → t.rxseq = f[1] ∧ t.rxcmp = f[2]) ∧
      (v.bytesTaken = 132 → t.rxck = f[131] ∧ t.rxsum = sumBytes (framePayload f) ∧
        t.rxbuf.toList = framePayload f))

/-- Rule R134: the round trip. Pushing the 132 bytes of encode(seq, p) gives OK with the sequence number
and the payload, in mode 0 for any SEQ and in mode 1 when SEQ is the frame's number; otherwise mode 1 gives
BADSEQ after 3 bytes. -/
def Obligations.EncodedFrameIsDecoded : Prop :=
  ∀ (seq : Byte) (p : Buffer) (m : Bool) (s : State),
    let frame := [0x01, seq, 0xFF - seq] ++ p.toList ++ [payloadSum p]
    (m = false ∨ s.seq = seq → ∃ t resps,
      run (rxArmWord m :: frame.map rxPushWord) s = .next (t, resps) ∧
      t.result = 0x01 ∧ t.rxseq = seq ∧ t.rxbuf = p ∧ t.rxpos = 132 ∧ t.err = s.err) ∧
    (m = true → s.seq ≠ seq → ∃ t resps,
      run (rxArmWord m :: (frame.take 3).map rxPushWord) s = .next (t, resps) ∧
      t.result = 0x05 ∧ t.rxdone = true ∧ t.rxpos = 3)
end

