-- ==== Sys2Proof/Laws/Buffer.lean ====
section
/-! SUPPORT. Buffers and sums: read after write, what a write leaves, and how the sum of rule R100 grows
by one byte or changes under a write. -/

namespace Sys2Proof.Machine

@[simp] theorem bufRead_bufWrite_same (buf : Buffer) (i : Fin 128) (b : Byte) :
    bufRead (bufWrite buf i b) i = b := by
  simp [bufRead, bufWrite]

theorem bufRead_bufWrite_other (buf : Buffer) {i j : Fin 128} (b : Byte) (h : j ≠ i) :
    bufRead (bufWrite buf i b) j = bufRead buf j := by
  have : i.val ≠ j.val := fun e => h (Fin.ext e.symm)
  simp [bufRead, bufWrite, this]

@[simp] theorem bufRead_zeroBuffer (i : Fin 128) : bufRead zeroBuffer i = 0x00 := by
  simp [bufRead, zeroBuffer]

theorem toList_bufWrite (buf : Buffer) (i : Fin 128) (b : Byte) :
    (bufWrite buf i b).toList = buf.toList.set i.val b := by
  simp [bufWrite, Vector.toList, Vector.set, Array.toList_set]

@[simp] theorem sumBytes_nil : sumBytes [] = 0x00 := rfl

theorem sumBytes_cons (b : Byte) (bs : List Byte) : sumBytes (b :: bs) = b + sumBytes bs := by
  apply BitVec.eq_of_toNat_eq
  simp [sumBytes]

theorem sumBytes_append (as bs : List Byte) : sumBytes (as ++ bs) = sumBytes as + sumBytes bs := by
  induction as with
  | nil => simp
  | cons a as ih => simp [sumBytes_cons, ih, BitVec.add_assoc]

/-- The sum of one byte more of a list. -/
theorem sumBytes_take_succ (bs : List Byte) (n : Nat) (h : n < bs.length) :
    sumBytes (bs.take (n + 1)) = sumBytes (bs.take n) + bs[n] := by
  rw [List.take_succ_eq_append_getElem h, sumBytes_append]
  simp [sumBytes_cons]

/-- A write at the end of a summed stretch adds the byte written, whatever stood there. -/
theorem sumBytes_take_bufWrite (buf : Buffer) (i : Fin 128) (b : Byte) :
    sumBytes ((bufWrite buf i b).toList.take (i.val + 1)) = sumBytes (buf.toList.take i.val) + b := by
  have hl : i.val < (bufWrite buf i b).toList.length := by simp
  rw [sumBytes_take_succ _ _ hl]
  simp [toList_bufWrite, List.take_set_of_le]

theorem checksum_zeroBuffer : checksum zeroBuffer = 0x00 := by
  simp [checksum, zeroBuffer, sumBytes]

end Sys2Proof.Machine
end

