-- ==== Sys2Proof/Laws/Decode.lean ====
section
/-! SUPPORT. A command word as its three fields, and the decoder over fields: every statement about all
words can be read off the 16 opcodes with `word_forall` and `decode_word`. -/

namespace Sys2Proof

@[simp] theorem opField_word (op rsv : BitVec 4) (imm : Byte) :
    opField ((op ++ rsv) ++ imm : BitVec 16) = op := by
  apply BitVec.eq_of_getLsbD_eq
  intro k hk
  have h1 : ¬ 12 + k < 8 := by omega
  have h2 : ¬ 12 + k - 8 < 4 := by omega
  have h3 : 12 + k - 8 - 4 = k := by omega
  simp only [opField, BitVec.getLsbD_append, BitVec.getLsbD_extractLsb', h1, h2, h3, hk, if_false,
    decide_true, Bool.true_and]

@[simp] theorem rsvField_word (op rsv : BitVec 4) (imm : Byte) :
    rsvField ((op ++ rsv) ++ imm : BitVec 16) = rsv := by
  apply BitVec.eq_of_getLsbD_eq
  intro k hk
  have h1 : ¬ 8 + k < 8 := by omega
  have h3 : 8 + k - 8 = k := by omega
  simp only [rsvField, BitVec.getLsbD_append, BitVec.getLsbD_extractLsb', h1, h3, hk, if_false, if_true,
    decide_true, Bool.true_and]

@[simp] theorem immField_word (op rsv : BitVec 4) (imm : Byte) :
    immField ((op ++ rsv) ++ imm : BitVec 16) = imm := by
  apply BitVec.eq_of_getLsbD_eq
  intro k hk
  have h1 : 0 + k = k := by omega
  simp only [immField, BitVec.getLsbD_append, BitVec.getLsbD_extractLsb', h1, hk, if_true, decide_true,
    Bool.true_and]

/-- A word is its three fields (rule R70). -/
theorem word_split (w : CommandWord) :
    w = ((opField w ++ rsvField w) ++ immField w : BitVec 16) := by
  apply BitVec.eq_of_getLsbD_eq
  intro k hk
  simp only [opField, rsvField, immField, BitVec.getLsbD_append, BitVec.getLsbD_extractLsb']
  by_cases h1 : k < 8
  · simp [h1]
  · by_cases h2 : k - 8 < 4
    · simp [h1, h2]
      congr 1
      omega
    · have h3 : k - 8 - 4 < 4 := by omega
      simp [h1, h2, h3]
      congr 1
      omega

/-- A property of all words is a property of all fields. -/
theorem word_forall {P : CommandWord → Prop}
    (h : ∀ (op rsv : BitVec 4) (imm : Byte), P ((op ++ rsv) ++ imm : BitVec 16)) (w : CommandWord) :
    P w := by
  rw [word_split w]
  apply h

/-- A word with reserved bits set is rejected whatever its opcode (rule R80 (b)). -/
theorem decode_of_rsvField_ne_zero (w : CommandWord) (h : rsvField w ≠ 0) :
    decode w = .error .reservedBits := by
  simp only [decode, ne_eq, h, not_false_eq_true, if_true]

/-- The decoder over fields with RSV = 0 is the row of the opcode (rule R75). -/
theorem decode_word (op : BitVec 4) (imm : Byte) :
    decode ((op ++ 0#4) ++ imm : BitVec 16) = decodeRow op imm := by
  unfold decode
  rw [rsvField_word, opField_word, immField_word]
  exact if_neg (by decide)

theorem decodeNone_ok {imm : Byte} {i j : Instr} : decodeNone imm i = .ok j ↔ imm = 0x00 ∧ i = j := by
  unfold decodeNone
  split <;> simp_all

theorem decodeMode_ok {imm : Byte} {j : Instr} :
    decodeMode imm = .ok j ↔ imm.extractLsb' 1 7 = 0 ∧ Instr.rxArm (imm.getLsbD 0) = j := by
  unfold decodeMode
  split <;> simp_all

theorem decodeIndex_ok {imm : Byte} {j : Instr} :
    decodeIndex imm = .ok j ↔ imm.getLsbD 7 = false ∧ Instr.rxGet (imm.extractLsb' 0 7) = j := by
  unfold decodeIndex
  split <;> simp_all

theorem decodeSelector_ok {imm : Byte} {j : Instr} :
    decodeSelector imm = .ok j ↔
      imm.extractLsb' 4 4 = 0 ∧ Instr.rd (RegView.ofSelector (imm.extractLsb' 0 4)) = j := by
  unfold decodeSelector
  split <;> simp_all

/-- A view's selector names the view (rule R40). -/
@[simp] theorem ofSelector_selector (v : RegView) :
    RegView.ofSelector (BitVec.ofNat 4 v.selector) = v := by
  cases v <;> rfl

/-- A selector is its view's selector (rule R40). -/
@[simp] theorem selector_ofSelector (s : SelectorCode) : (RegView.ofSelector s).selector = s.toNat := by
  revert s
  decide

end Sys2Proof
end

