-- ==== Sys2Proof/Laws/State.lean ====
section
/-! SUPPORT. One lemma for each field under each shared update of State, and the two facts by which an
error and a plain effect answer a next state. -/

namespace Sys2Proof.Machine

/-- `raise` always goes on: an error is a next state. -/
theorem raise_eq_next (e : ErrCause) (s : State) : raise e s = .next (setErr e s) := rfl

@[simp] theorem raise_next_iff (e : ErrCause) (s t : State) : raise e s = .next t ↔ setErr e s = t := by
  simp [raise]

@[simp] theorem setErr_seq (e : ErrCause) (s : State) : (setErr e s).seq = s.seq := rfl
@[simp] theorem setErr_txbuf (e : ErrCause) (s : State) : (setErr e s).txbuf = s.txbuf := rfl
@[simp] theorem setErr_txcnt (e : ErrCause) (s : State) : (setErr e s).txcnt = s.txcnt := rfl
@[simp] theorem setErr_txpos (e : ErrCause) (s : State) : (setErr e s).txpos = s.txpos := rfl
@[simp] theorem setErr_txseq (e : ErrCause) (s : State) : (setErr e s).txseq = s.txseq := rfl
@[simp] theorem setErr_txsum (e : ErrCause) (s : State) : (setErr e s).txsum = s.txsum := rfl
@[simp] theorem setErr_txact (e : ErrCause) (s : State) : (setErr e s).txact = s.txact := rfl
@[simp] theorem setErr_rxbuf (e : ErrCause) (s : State) : (setErr e s).rxbuf = s.rxbuf := rfl
@[simp] theorem setErr_rxpos (e : ErrCause) (s : State) : (setErr e s).rxpos = s.rxpos := rfl
@[simp] theorem setErr_rxsum (e : ErrCause) (s : State) : (setErr e s).rxsum = s.rxsum := rfl
@[simp] theorem setErr_result (e : ErrCause) (s : State) : (setErr e s).result = s.result := rfl
@[simp] theorem setErr_rxhdr (e : ErrCause) (s : State) : (setErr e s).rxhdr = s.rxhdr := rfl
@[simp] theorem setErr_rxseq (e : ErrCause) (s : State) : (setErr e s).rxseq = s.rxseq := rfl
@[simp] theorem setErr_rxcmp (e : ErrCause) (s : State) : (setErr e s).rxcmp = s.rxcmp := rfl
@[simp] theorem setErr_rxck (e : ErrCause) (s : State) : (setErr e s).rxck = s.rxck := rfl
@[simp] theorem setErr_rxexp (e : ErrCause) (s : State) : (setErr e s).rxexp = s.rxexp := rfl
@[simp] theorem setErr_err (e : ErrCause) (s : State) : (setErr e s).err = s.err ||| (1#8 <<< e.bit) := rfl
@[simp] theorem setErr_chkseq (e : ErrCause) (s : State) : (setErr e s).chkseq = s.chkseq := rfl
@[simp] theorem setErr_rxact (e : ErrCause) (s : State) : (setErr e s).rxact = s.rxact := rfl
@[simp] theorem setErr_rxdone (e : ErrCause) (s : State) : (setErr e s).rxdone = s.rxdone := rfl
@[simp] theorem setErr_resp (e : ErrCause) (s : State) : (setErr e s).resp = s.resp := rfl
@[simp] theorem setErr_pending (e : ErrCause) (s : State) : (setErr e s).pending = s.pending := rfl

@[simp] theorem respond_seq (v : Byte) (s : State) : (respond v s).seq = s.seq := rfl
@[simp] theorem respond_txbuf (v : Byte) (s : State) : (respond v s).txbuf = s.txbuf := rfl
@[simp] theorem respond_txcnt (v : Byte) (s : State) : (respond v s).txcnt = s.txcnt := rfl
@[simp] theorem respond_txpos (v : Byte) (s : State) : (respond v s).txpos = s.txpos := rfl
@[simp] theorem respond_txseq (v : Byte) (s : State) : (respond v s).txseq = s.txseq := rfl
@[simp] theorem respond_txsum (v : Byte) (s : State) : (respond v s).txsum = s.txsum := rfl
@[simp] theorem respond_txact (v : Byte) (s : State) : (respond v s).txact = s.txact := rfl
@[simp] theorem respond_rxbuf (v : Byte) (s : State) : (respond v s).rxbuf = s.rxbuf := rfl
@[simp] theorem respond_rxpos (v : Byte) (s : State) : (respond v s).rxpos = s.rxpos := rfl
@[simp] theorem respond_rxsum (v : Byte) (s : State) : (respond v s).rxsum = s.rxsum := rfl
@[simp] theorem respond_result (v : Byte) (s : State) : (respond v s).result = s.result := rfl
@[simp] theorem respond_rxhdr (v : Byte) (s : State) : (respond v s).rxhdr = s.rxhdr := rfl
@[simp] theorem respond_rxseq (v : Byte) (s : State) : (respond v s).rxseq = s.rxseq := rfl
@[simp] theorem respond_rxcmp (v : Byte) (s : State) : (respond v s).rxcmp = s.rxcmp := rfl
@[simp] theorem respond_rxck (v : Byte) (s : State) : (respond v s).rxck = s.rxck := rfl
@[simp] theorem respond_rxexp (v : Byte) (s : State) : (respond v s).rxexp = s.rxexp := rfl
@[simp] theorem respond_err (v : Byte) (s : State) : (respond v s).err = s.err := rfl
@[simp] theorem respond_chkseq (v : Byte) (s : State) : (respond v s).chkseq = s.chkseq := rfl
@[simp] theorem respond_rxact (v : Byte) (s : State) : (respond v s).rxact = s.rxact := rfl
@[simp] theorem respond_rxdone (v : Byte) (s : State) : (respond v s).rxdone = s.rxdone := rfl
@[simp] theorem respond_resp (v : Byte) (s : State) : (respond v s).resp = v := rfl
@[simp] theorem respond_pending (v : Byte) (s : State) : (respond v s).pending = s.pending := rfl

@[simp] theorem conclude_seq (c : Verdict) (s : State) : (conclude c s).seq = s.seq := rfl
@[simp] theorem conclude_txbuf (c : Verdict) (s : State) : (conclude c s).txbuf = s.txbuf := rfl
@[simp] theorem conclude_txcnt (c : Verdict) (s : State) : (conclude c s).txcnt = s.txcnt := rfl
@[simp] theorem conclude_txpos (c : Verdict) (s : State) : (conclude c s).txpos = s.txpos := rfl
@[simp] theorem conclude_txseq (c : Verdict) (s : State) : (conclude c s).txseq = s.txseq := rfl
@[simp] theorem conclude_txsum (c : Verdict) (s : State) : (conclude c s).txsum = s.txsum := rfl
@[simp] theorem conclude_txact (c : Verdict) (s : State) : (conclude c s).txact = s.txact := rfl
@[simp] theorem conclude_rxbuf (c : Verdict) (s : State) : (conclude c s).rxbuf = s.rxbuf := rfl
@[simp] theorem conclude_rxpos (c : Verdict) (s : State) : (conclude c s).rxpos = s.rxpos := rfl
@[simp] theorem conclude_rxsum (c : Verdict) (s : State) : (conclude c s).rxsum = s.rxsum := rfl
@[simp] theorem conclude_result (c : Verdict) (s : State) : (conclude c s).result = c.code := rfl
@[simp] theorem conclude_rxhdr (c : Verdict) (s : State) : (conclude c s).rxhdr = s.rxhdr := rfl
@[simp] theorem conclude_rxseq (c : Verdict) (s : State) : (conclude c s).rxseq = s.rxseq := rfl
@[simp] theorem conclude_rxcmp (c : Verdict) (s : State) : (conclude c s).rxcmp = s.rxcmp := rfl
@[simp] theorem conclude_rxck (c : Verdict) (s : State) : (conclude c s).rxck = s.rxck := rfl
@[simp] theorem conclude_rxexp (c : Verdict) (s : State) : (conclude c s).rxexp = s.rxexp := rfl
@[simp] theorem conclude_err (c : Verdict) (s : State) : (conclude c s).err = s.err := rfl
@[simp] theorem conclude_chkseq (c : Verdict) (s : State) : (conclude c s).chkseq = s.chkseq := rfl
@[simp] theorem conclude_rxact (c : Verdict) (s : State) : (conclude c s).rxact = false := rfl
@[simp] theorem conclude_rxdone (c : Verdict) (s : State) : (conclude c s).rxdone = true := rfl
@[simp] theorem conclude_resp (c : Verdict) (s : State) : (conclude c s).resp = s.resp := rfl
@[simp] theorem conclude_pending (c : Verdict) (s : State) : (conclude c s).pending = s.pending := rfl

@[simp] theorem resetRegisters_seq (s : State) : (resetRegisters s).seq = Config.seqReset := rfl
@[simp] theorem resetRegisters_txbuf (s : State) : (resetRegisters s).txbuf = zeroBuffer := rfl
@[simp] theorem resetRegisters_txcnt (s : State) : (resetRegisters s).txcnt = 0x00 := rfl
@[simp] theorem resetRegisters_txpos (s : State) : (resetRegisters s).txpos = 0x00 := rfl
@[simp] theorem resetRegisters_txseq (s : State) : (resetRegisters s).txseq = 0x00 := rfl
@[simp] theorem resetRegisters_txsum (s : State) : (resetRegisters s).txsum = 0x00 := rfl
@[simp] theorem resetRegisters_txact (s : State) : (resetRegisters s).txact = false := rfl
@[simp] theorem resetRegisters_rxbuf (s : State) : (resetRegisters s).rxbuf = zeroBuffer := rfl
@[simp] theorem resetRegisters_rxpos (s : State) : (resetRegisters s).rxpos = 0x00 := rfl
@[simp] theorem resetRegisters_rxsum (s : State) : (resetRegisters s).rxsum = 0x00 := rfl
@[simp] theorem resetRegisters_result (s : State) : (resetRegisters s).result = 0x00 := rfl
@[simp] theorem resetRegisters_rxhdr (s : State) : (resetRegisters s).rxhdr = 0x00 := rfl
@[simp] theorem resetRegisters_rxseq (s : State) : (resetRegisters s).rxseq = 0x00 := rfl
@[simp] theorem resetRegisters_rxcmp (s : State) : (resetRegisters s).rxcmp = 0x00 := rfl
@[simp] theorem resetRegisters_rxck (s : State) : (resetRegisters s).rxck = 0x00 := rfl
@[simp] theorem resetRegisters_rxexp (s : State) : (resetRegisters s).rxexp = 0x00 := rfl
@[simp] theorem resetRegisters_err (s : State) : (resetRegisters s).err = 0x00 := rfl
@[simp] theorem resetRegisters_chkseq (s : State) : (resetRegisters s).chkseq = false := rfl
@[simp] theorem resetRegisters_rxact (s : State) : (resetRegisters s).rxact = false := rfl
@[simp] theorem resetRegisters_rxdone (s : State) : (resetRegisters s).rxdone = false := rfl
@[simp] theorem resetRegisters_resp (s : State) : (resetRegisters s).resp = 0x00 := rfl
@[simp] theorem resetRegisters_pending (s : State) : (resetRegisters s).pending = s.pending := rfl

end Sys2Proof.Machine
end

