-- ==== Sys2Proof/Laws/Exec.lean ====
section
/-! SUPPORT. What a command that answers a next state can have done, said once for each command with
cases, and the cases of the validator's stages. Later proofs cite these and do not unfold the meanings. -/

namespace Sys2Proof.Machine

/-- The successor of an 8-bit counter as a number, below 255. -/
theorem toNat_succ_of_lt {x : Byte} (h : x.toNat < 255) : (x + 1).toNat = x.toNat + 1 := by
  rw [BitVec.toNat_add]
  simp
  omega

/-- The successor of an 8-bit counter as rule R10 writes it. -/
theorem succ_eq_ofNat (x : Byte) : x + 1 = BitVec.ofNat 8 (x.toNat + 1) := by
  apply BitVec.eq_of_toNat_eq
  simp

theorem execTxPut_next {b : Byte} {s t : State} (h : execTxPut b s = .next t) :
    (s.txact = true ∧ t = setErr .txBusy s) ∨
    (s.txact = false ∧ s.txcnt = 128 ∧ t = setErr .txFull s) ∨
    (s.txact = false ∧ s.txcnt ≠ 128 ∧ ∃ hl : s.txcnt.toNat < 128,
      t = { s with txbuf := bufWrite s.txbuf ⟨s.txcnt.toNat, hl⟩ b, txcnt := s.txcnt + 1 }) := by
  unfold execTxPut at h
  by_cases ha : s.txact = true
  · rw [if_pos ha] at h
    exact .inl ⟨ha, by cases h; rfl⟩
  · rw [if_neg ha] at h
    have ha' : s.txact = false := by simpa using ha
    by_cases hc : s.txcnt = 128
    · rw [if_pos hc] at h
      exact .inr (.inl ⟨ha', hc, by cases h; rfl⟩)
    · rw [if_neg hc] at h
      by_cases hl : s.txcnt.toNat < 128
      · rw [dif_pos hl] at h
        exact .inr (.inr ⟨ha', hc, hl, by cases h; rfl⟩)
      · rw [dif_neg hl] at h
        cases h

theorem execTxPop_next {s t : State} (h : execTxPop s = .next t) :
    (s.txact = false ∧ t = setErr .txEmpty (respond 0x00 s)) ∨
    (s.txact = true ∧ ∃ hl : s.txpos.toNat < 132,
      t = { s with
        resp := frameByte s ⟨s.txpos.toNat, hl⟩
        txpos := s.txpos + 1
        txact := decide (s.txpos + 1 ≠ 132) }) := by
  unfold execTxPop at h
  by_cases ha : s.txact = true
  · rw [if_pos ha] at h
    by_cases hl : s.txpos.toNat < 132
    · rw [dif_pos hl] at h
      exact .inr ⟨ha, hl, by cases h; rfl⟩
    · rw [dif_neg hl] at h
      cases h
  · rw [if_neg ha] at h
    exact .inl ⟨by simpa using ha, by cases h; rfl⟩

theorem execRxPush_next {b : Byte} {s t : State} (h : execRxPush b s = .next t) :
    (s.rxact = false ∧ t = setErr .rxIdle s) ∨
    (s.rxact = true ∧ ∃ hl : s.rxpos.toNat < 132,
      t = rxStage ⟨s.rxpos.toNat, hl⟩ b { s with rxpos := s.rxpos + 1 }) := by
  unfold execRxPush at h
  by_cases ha : s.rxact = true
  · rw [if_pos ha] at h
    by_cases hl : s.rxpos.toNat < 132
    · rw [dif_pos hl] at h
      exact .inr ⟨ha, hl, by cases h; rfl⟩
    · rw [dif_neg hl] at h
      cases h
  · rw [if_neg ha] at h
    exact .inl ⟨by simpa using ha, by cases h; rfl⟩

/-- The five stages by position (rule R124). -/
theorem rxStage_cases (p : Fin 132) (b : Byte) (s : State) :
    (p.val = 0 ∧ rxStage p b s = headerStage b s) ∨
    (p.val = 1 ∧ rxStage p b s = seqStage b s) ∨
    (p.val = 2 ∧ rxStage p b s = cmpStage b s) ∨
    (∃ i : Fin 128, p.val = 3 + i.val ∧ rxStage p b s = payloadStage i b s) ∨
    (p.val = 131 ∧ rxStage p b s = sumStage b s) := by
  obtain ⟨p, hp⟩ := p
  unfold rxStage
  by_cases h0 : p = 0
  · exact .inl ⟨h0, if_pos h0⟩
  by_cases h1 : p = 1
  · exact .inr (.inl ⟨h1, by simp only [h1]; rfl⟩)
  by_cases h2 : p = 2
  · exact .inr (.inr (.inl ⟨h2, by simp only [h2]; rfl⟩))
  by_cases h3 : p - 3 < 128
  · refine .inr (.inr (.inr (.inl ⟨⟨p - 3, h3⟩, by simp only; omega, ?_⟩)))
    simp only [h0, h1, h2, h3, if_false, dif_pos]
  · refine .inr (.inr (.inr (.inr ⟨?_, ?_⟩)))
    · show p = 131
      omega
    · simp only [h0, h1, h2, h3, if_false, dif_neg, not_false_eq_true]

theorem headerStage_cases (b : Byte) (s : State) :
    (b = Config.soh ∧ headerStage b s = { s with rxhdr := b }) ∨
    (b = Config.eot ∧ headerStage b s = conclude .eot { s with rxhdr := b }) ∨
    (b ≠ Config.soh ∧ b ≠ Config.eot ∧ headerStage b s = conclude .badHdr { s with rxhdr := b }) := by
  unfold headerStage
  by_cases h1 : b = Config.soh
  · exact .inl ⟨h1, if_pos h1⟩
  by_cases h2 : b = Config.eot
  · exact .inr (.inl ⟨h2, by simp only [if_neg h1, if_pos h2]⟩)
  · exact .inr (.inr ⟨h1, h2, by simp only [if_neg h1, if_neg h2]⟩)

theorem cmpStage_cases (b : Byte) (s : State) :
    (b ≠ complement s.rxseq ∧ cmpStage b s = conclude .badCmp { s with rxcmp := b }) ∨
    (b = complement s.rxseq ∧ s.chkseq = true ∧ s.rxseq ≠ s.rxexp ∧
      cmpStage b s = conclude .badSeq { s with rxcmp := b }) ∨
    (b = complement s.rxseq ∧ (s.chkseq = true → s.rxseq = s.rxexp) ∧
      cmpStage b s = { s with rxcmp := b }) := by
  unfold cmpStage
  by_cases h1 : b = complement s.rxseq
  · by_cases h2 : s.chkseq = true ∧ s.rxseq ≠ s.rxexp
    · exact .inr (.inl ⟨h1, h2.1, h2.2, by simp only [ne_eq, h1, not_true_eq_false, if_false]; exact if_pos h2⟩)
    · refine .inr (.inr ⟨h1, fun hc => by_contra fun hn => h2 ⟨hc, hn⟩, ?_⟩)
      simp only [ne_eq, h1, not_true_eq_false, if_false]
      exact if_neg h2
  · exact .inl ⟨h1, if_pos h1⟩

theorem sumStage_cases (b : Byte) (s : State) :
    (b = s.rxsum ∧ sumStage b s = conclude .ok { s with rxck := b }) ∨
    (b ≠ s.rxsum ∧ sumStage b s = conclude .badSum { s with rxck := b }) := by
  unfold sumStage
  by_cases h : b = s.rxsum
  · exact .inl ⟨h, if_pos h⟩
  · exact .inr ⟨h, if_neg h⟩

/-- What no stage writes: the framer, SEQ, the arming latches, ERR, RESP and the position itself. -/
theorem rxStage_frame (p : Fin 132) (b : Byte) (s : State) :
    let t := rxStage p b s
    t.seq = s.seq ∧ t.txbuf = s.txbuf ∧ t.txcnt = s.txcnt ∧ t.txpos = s.txpos ∧
    t.txseq = s.txseq ∧ t.txsum = s.txsum ∧ t.txact = s.txact ∧ t.rxexp = s.rxexp ∧
    t.chkseq = s.chkseq ∧ t.err = s.err ∧ t.resp = s.resp ∧ t.pending = s.pending ∧
    t.rxpos = s.rxpos := by
  intro t
  have ht : t = rxStage p b s := rfl
  rcases rxStage_cases p b s with ⟨-, e⟩ | ⟨-, e⟩ | ⟨-, e⟩ | ⟨i, -, e⟩ | ⟨-, e⟩ <;> rw [ht, e]
  · rcases headerStage_cases b s with ⟨-, e⟩ | ⟨-, e⟩ | ⟨-, -, e⟩ <;> rw [e] <;> simp
  · simp [seqStage]
  · rcases cmpStage_cases b s with ⟨-, e⟩ | ⟨-, -, -, e⟩ | ⟨-, -, e⟩ <;> rw [e] <;> simp
  · simp [payloadStage]
  · rcases sumStage_cases b s with ⟨-, e⟩ | ⟨-, e⟩ <;> rw [e] <;> simp

@[simp] theorem rxStage_seq (p : Fin 132) (b : Byte) (s : State) :
    (rxStage p b s).seq = s.seq := (rxStage_frame p b s).1

@[simp] theorem rxStage_txbuf (p : Fin 132) (b : Byte) (s : State) :
    (rxStage p b s).txbuf = s.txbuf := (rxStage_frame p b s).2.1

@[simp] theorem rxStage_txcnt (p : Fin 132) (b : Byte) (s : State) :
    (rxStage p b s).txcnt = s.txcnt := (rxStage_frame p b s).2.2.1

@[simp] theorem rxStage_txpos (p : Fin 132) (b : Byte) (s : State) :
    (rxStage p b s).txpos = s.txpos := (rxStage_frame p b s).2.2.2.1

@[simp] theorem rxStage_txseq (p : Fin 132) (b : Byte) (s : State) :
    (rxStage p b s).txseq = s.txseq := (rxStage_frame p b s).2.2.2.2.1

@[simp] theorem rxStage_txsum (p : Fin 132) (b : Byte) (s : State) :
    (rxStage p b s).txsum = s.txsum := (rxStage_frame p b s).2.2.2.2.2.1

@[simp] theorem rxStage_txact (p : Fin 132) (b : Byte) (s : State) :
    (rxStage p b s).txact = s.txact := (rxStage_frame p b s).2.2.2.2.2.2.1

@[simp] theorem rxStage_rxexp (p : Fin 132) (b : Byte) (s : State) :
    (rxStage p b s).rxexp = s.rxexp := (rxStage_frame p b s).2.2.2.2.2.2.2.1

@[simp] theorem rxStage_chkseq (p : Fin 132) (b : Byte) (s : State) :
    (rxStage p b s).chkseq = s.chkseq := (rxStage_frame p b s).2.2.2.2.2.2.2.2.1

@[simp] theorem rxStage_err (p : Fin 132) (b : Byte) (s : State) :
    (rxStage p b s).err = s.err := (rxStage_frame p b s).2.2.2.2.2.2.2.2.2.1

@[simp] theorem rxStage_resp (p : Fin 132) (b : Byte) (s : State) :
    (rxStage p b s).resp = s.resp := (rxStage_frame p b s).2.2.2.2.2.2.2.2.2.2.1

@[simp] theorem rxStage_pending (p : Fin 132) (b : Byte) (s : State) :
    (rxStage p b s).pending = s.pending := (rxStage_frame p b s).2.2.2.2.2.2.2.2.2.2.2.1

@[simp] theorem rxStage_rxpos (p : Fin 132) (b : Byte) (s : State) :
    (rxStage p b s).rxpos = s.rxpos := (rxStage_frame p b s).2.2.2.2.2.2.2.2.2.2.2.2

/-- A stage that ends the frame leaves DONE with a verdict; one that does not leaves both as they were. -/
theorem rxStage_verdict (p : Fin 132) (b : Byte) (s : State) (h : s.rxact = true) :
    ((rxStage p b s).rxact = false ∧ (rxStage p b s).rxdone = true ∧
      ∃ c : Verdict, c ≠ .none ∧ (rxStage p b s).result = c.code) ∨
    ((rxStage p b s).rxact = true ∧ (rxStage p b s).rxdone = s.rxdone ∧
      (rxStage p b s).result = s.result) := by
  rcases rxStage_cases p b s with ⟨-, e⟩ | ⟨-, e⟩ | ⟨-, e⟩ | ⟨i, -, e⟩ | ⟨-, e⟩ <;> rw [e]
  · rcases headerStage_cases b s with ⟨-, e⟩ | ⟨-, e⟩ | ⟨-, -, e⟩ <;> rw [e]
    · exact .inr ⟨h, rfl, rfl⟩
    · exact .inl ⟨rfl, rfl, .eot, by simp, rfl⟩
    · exact .inl ⟨rfl, rfl, .badHdr, by simp, rfl⟩
  · exact .inr ⟨h, rfl, rfl⟩
  · rcases cmpStage_cases b s with ⟨-, e⟩ | ⟨-, -, -, e⟩ | ⟨-, -, e⟩ <;> rw [e]
    · exact .inl ⟨rfl, rfl, .badCmp, by simp, rfl⟩
    · exact .inl ⟨rfl, rfl, .badSeq, by simp, rfl⟩
    · exact .inr ⟨h, rfl, rfl⟩
  · exact .inr ⟨h, rfl, rfl⟩
  · rcases sumStage_cases b s with ⟨-, e⟩ | ⟨-, e⟩ <;> rw [e]
    · exact .inl ⟨rfl, rfl, .ok, by simp, rfl⟩
    · exact .inl ⟨rfl, rfl, .badSum, by simp, rfl⟩

/-- A step performs one command word or holds the state. -/
theorem step_next {s t : State} (h : step s = .next t) :
    (s.pending = [] ∧ t = s) ∨
    (∃ w rest, s.pending = w :: rest ∧ command w { s with pending := rest } = .next t) := by
  unfold step fetch at h
  split at h
  · rename_i hf
    split at hf
    · rename_i hp
      exact .inl ⟨hp, by cases h; rfl⟩
    · cases hf
  · rename_i w s' hf
    split at hf
    · cases hf
    · rename_i w' rest hp
      cases hf
      exact .inr ⟨_, _, hp, h⟩

/-- A command word runs its decoded command or raises ILLEGAL. -/
theorem command_next {w : CommandWord} {s t : State} (h : command w s = .next t) :
    (∃ i, decode w = .ok i ∧ exec i s = .next t) ∨
    (∃ e, decode w = .error e ∧ t = setErr .illegal s) := by
  unfold command at h
  split at h
  · exact .inl ⟨_, ‹_›, h⟩
  · exact .inr ⟨_, ‹_›, by cases h; rfl⟩

theorem command_of_ok {w : CommandWord} {i : Instr} (h : decode w = .ok i) (s : State) :
    command w s = exec i s := by
  unfold command
  rw [h]

/-- Runs compose: the words in front, then the rest from where they led. -/
theorem run_append {as bs : List CommandWord} {s t : State} {rs : List Byte}
    (h : run as s = .next (t, rs)) :
    run (as ++ bs) s =
      match run bs t with
      | .next (u, qs) => .next (u, rs ++ qs)
      | .fault f => .fault f
      | .refused r => .refused r := by
  induction as generalizing s rs with
  | nil =>
    simp only [run, Host.Outcome.next.injEq, Prod.mk.injEq] at h
    obtain ⟨rfl, rfl⟩ := h
    simp only [List.nil_append]
    cases run bs s <;> rfl
  | cons a as ih =>
    simp only [List.cons_append, run] at h ⊢
    cases hc : command a s with
    | next u =>
      simp only [hc] at h ⊢
      cases hr : run as u with
      | next p =>
        obtain ⟨v, qs⟩ := p
        simp only [hr, Host.Outcome.next.injEq, Prod.mk.injEq] at h
        obtain ⟨rfl, rfl⟩ := h
        rw [ih hr]
        cases run bs v <;> rfl
      | fault f => simp [hr] at h
      | refused r => simp [hr] at h
    | fault f => simp [hc] at h
    | refused r => simp [hc] at h

/-- One word in front of a run. -/
theorem run_cons_of_next {w : CommandWord} {ws : List CommandWord} {s t u : State} {rs : List Byte}
    (h : command w s = .next t) (hr : run ws t = .next (u, rs)) :
    run (w :: ws) s = .next (u, t.resp :: rs) := by
  simp only [run, h, hr]

end Sys2Proof.Machine
end

