-- ==== Sys2Proof/Laws/PerInstr.lean ====
section
/-! SUPPORT. Facts about every instruction as syntax, one lemma for each constructor: the types of `Instr`
keep every operand in the legal range of its class (rule R72), so every instruction is well formed. -/

namespace Sys2Proof.Laws.LegalOperand

/-- The operand of the instruction suits its class. -/
def Statement (i : Instr) : Prop := i.wf = true

theorem nop : Statement .nop := rfl

theorem rst : Statement .rst := rfl

theorem seqSet (b : Byte) : Statement (.seqSet b) := decide_eq_true b.isLt

theorem seqInc : Statement .seqInc := rfl

theorem txClr : Statement .txClr := rfl

theorem txPut (b : Byte) : Statement (.txPut b) := decide_eq_true b.isLt

theorem txFrame : Statement .txFrame := rfl

theorem txPop : Statement .txPop := rfl

theorem rxArm (m : Bool) : Statement (.rxArm m) := by cases m <;> rfl

theorem rxPush (b : Byte) : Statement (.rxPush b) := decide_eq_true b.isLt

theorem rxGet (i : BufIndex) : Statement (.rxGet i) := decide_eq_true i.isLt

theorem rd (v : RegView) : Statement (.rd v) := by cases v <;> rfl

end Sys2Proof.Laws.LegalOperand
end

