-- ==== Sys2Proof/Tests/Slice0.lean ====
section
/-! SUPPORT. The model's own tests. Expected values are the spec's worked examples (the one-line examples
of rules R90 to R142), the vectors of 95_test_vectors.md (named V-… and P…), and words written out from
rule R73. The witnesses at the end show, for each statement with hypotheses, states and operands that meet
them. -/

namespace Sys2Proof.Tests

open Sys2Proof Sys2Proof.Machine

/-! ### Helpers -/

/-- One field of the next state a command answers. -/
def field {α : Type} (r : Result) (f : State → α) : Option α :=
  match r with
  | .next t => some (f t)
  | .fault _ => none
  | .refused _ => none

/-- The framer in mid emission at a position. -/
def emittingAt (p : Byte) : State := { State.reset with txact := true, txpos := p, txseq := 0x01, txsum := 0x37 }

/-- The framer with so many bytes loaded and no frame in flight. -/
def loadedWith (n : Byte) : State := { State.reset with txcnt := n }

/-- The validator ARMED in mode 1 for sequence number 1, at a position. -/
def armedAt (p : Byte) : State :=
  { State.reset with rxact := true, rxpos := p, rxhdr := 0x01, rxseq := 0x01, rxexp := 0x01, chkseq := true }

/-! ### Well-formedness refuses ill-formed terms (rules R72, R82, R83) -/

theorem test_wf_missing_operand : (SourceLine.mk .SEQ_SET none).wf = false := by decide
theorem test_wf_stray_operand : (SourceLine.mk .NOP (some 0)).wf = false := by decide
theorem test_wf_byte_too_large : (SourceLine.mk .TX_PUT (some 256)).wf = false := by decide
theorem test_wf_mode_too_large : (SourceLine.mk .RX_ARM (some 2)).wf = false := by decide
theorem test_wf_index_too_large : (SourceLine.mk .RX_GET (some 128)).wf = false := by decide
theorem test_wf_selector_too_large : (SourceLine.mk .RD (some 16)).wf = false := by decide
theorem test_wf_load_of_nothing : (Pseudo.txLoad []).wf = false := by decide
theorem test_wf_load_of_129 : (Pseudo.txLoad (List.replicate 129 0)).wf = false := by
  simp only [Pseudo.wf, List.length_replicate]
  decide
theorem test_wf_load_of_a_large_number : (Pseudo.txLoad [300]).wf = false := by decide
theorem test_wf_feed_of_nothing : (Pseudo.rxFeed []).wf = false := by decide
theorem test_wf_check_of_131 : (Pseudo.rxCheck (List.replicate 131 0)).wf = false := by
  simp only [Pseudo.wf, List.length_replicate]
  rfl

/-! ### Decoding (rule R73's encodings bit by bit; V-Y and P7 for the illegal words) -/

theorem test_decode_nop : decode 0b0000000000000000 = .ok .nop := by decide
theorem test_decode_rst : decode 0b0001000000000000 = .ok .rst := by decide
theorem test_decode_seqSet : decode 0b0010000010110101 = .ok (.seqSet 0xB5) := by decide
theorem test_decode_seqInc : decode 0b0011000000000000 = .ok .seqInc := by decide
theorem test_decode_txClr : decode 0b0100000000000000 = .ok .txClr := by decide
theorem test_decode_txPut : decode 0b0101000010000001 = .ok (.txPut 0x81) := by decide
theorem test_decode_txFrame : decode 0b0110000000000000 = .ok .txFrame := by decide
theorem test_decode_txPop : decode 0b0111000000000000 = .ok .txPop := by decide
theorem test_decode_rxArm0 : decode 0b1000000000000000 = .ok (.rxArm false) := by decide
theorem test_decode_rxArm1 : decode 0b1000000000000001 = .ok (.rxArm true) := by decide
theorem test_decode_rxPush : decode 0b1001000011111110 = .ok (.rxPush 0xFE) := by decide
theorem test_decode_rxGet : decode 0b1010000001111110 = .ok (.rxGet 126) := by decide
theorem test_decode_rd_err : decode 0b1011000000001110 = .ok (.rd .err) := by decide
theorem test_decode_rd_ctrl : decode 0b1011000000001111 = .ok (.rd .ctrl) := by decide
theorem test_illegal_nop_imm : decode 0x0001 = .error .strayOperand := by decide
theorem test_illegal_opcode_C : decode 0xC000 = .error .unusedOpcode := by decide
theorem test_illegal_opcode_F : decode 0xF000 = .error .unusedOpcode := by decide
theorem test_illegal_rsv : decode 0x2100 = .error .reservedBits := by decide
theorem test_illegal_mode : decode 0x8002 = .error .modeBits := by decide
theorem test_illegal_index : decode 0xA080 = .error .indexBit := by decide
theorem test_illegal_selector : decode 0xB010 = .error .selectorBits := by decide
theorem test_encode_rxGet : encode (.rxGet 9) = 0xA009 := by decide
theorem test_table_word : decodeTableWord 16 0x5041 = some (.txPut 0x41) := by decide
theorem test_table_word_illegal : decodeTableWord 16 0x1001 = none := by decide

/-! ### The assembler (rule R82's examples; P4) -/

theorem test_assemble_hex :
    assembleText ['S', 'E', 'Q', '_', 'S', 'E', 'T', ' ', '0', 'x', '0', '1'] = some [0x2001] := by decide
theorem test_assemble_decimal_comment :
    assembleText ['T', 'X', '_', 'P', 'U', 'T', ' ', '6', '5', ' ', ';', 'A'] = some [0x5041] := by decide
theorem test_assemble_out_of_range :
    assembleText ['R', 'X', '_', 'A', 'R', 'M', ' ', '2'] = none := by decide
theorem test_assemble_pseudo :
    assembleText ['T', 'X', '_', 'L', 'O', 'A', 'D', ' ', '1', ',', ' ', '2'] =
      some [0x4000, 0x5001, 0x5002] := by decide

/-! ### The step -/

/-- V-S2: the word 0x2001 placed on the port of a state with SEQ = 07. -/
theorem test_step_runs_the_word :
    field (step (State.withFetchWord { State.reset with seq := 0x07 } 16 0x2001)) (·.seq) = some 0x01 := by
  decide

/-- P7: 0x1001 does not reset; V-Y8. -/
theorem test_step_illegal :
    field (step (State.withFetchWord { State.reset with seq := 0x42 } 16 0x1001)) (fun t => (t.seq, t.err)) =
      some (0x42, 0x01) := by decide

/-! ### Sequence commands (V-S5, V-S6) -/

theorem test_seqSet : field (exec (.seqSet 0x01) { State.reset with seq := 0x07 }) (·.seq) = some 0x01 := by
  decide
theorem test_seqInc_wraps : field (exec .seqInc { State.reset with seq := 0xFF }) (·.seq) = some 0x00 := by
  decide
theorem test_seqInc_7F : field (exec .seqInc { State.reset with seq := 0x7F }) (·.seq) = some 0x80 := by
  decide

/-! ### Framer commands (V-F) -/

/-- V-F18. -/
theorem test_txClr_cancels :
    field (exec .txClr (emittingAt 5)) (fun t => (t.txact, t.txpos, t.txseq, t.txsum, t.err, t.seq)) =
      some (false, 0x00, 0x00, 0x00, 0x00, 0x01) := by decide

/-- Rule R103's example. -/
theorem test_txPut_appends :
    field (exec (.txPut 0x41) State.reset) (fun t => (bufRead t.txbuf 0, t.txcnt)) = some (0x41, 0x01) := by
  decide

/-- V-F15: TXACT = 1 and TXCNT = 80 both hold, and only TXBUSY is added. -/
theorem test_txPut_busy_first :
    field (exec (.txPut 0x01) { emittingAt 0 with txcnt := 0x80, err := 0x02 }) (fun t => (t.err, t.txcnt)) =
      some (0x06, 0x80) := by decide

/-- V-F4 and V-F5: the sums of "ABC" and "Hello". -/
theorem test_sum_abc : sumBytes [0x41, 0x42, 0x43] = 0xC6 := by decide
theorem test_sum_hello : sumBytes [0x48, 0x65, 0x6C, 0x6C, 0x6F] = 0xF4 := by decide

/-- V-F8: 128 bytes of FF sum to 80. -/
theorem test_checksum_of_FFs : checksum (Vector.replicate 128 0xFF) = 0x80 := by
  simp [checksum, sumBytes]

/-- Rule R105: TX_FRAME latches SEQ and starts at frame byte 0. -/
theorem test_txFrame_latches :
    field (exec .txFrame { emittingAt 9 with seq := 0x33 }) (fun t => (t.txseq, t.txpos, t.txact)) =
      some (0x33, 0x00, true) := by decide

/-- Rule R108's example: the 3rd byte is FE and the 132nd, the last, is 37. -/
theorem test_txPop_third : field (exec .txPop (emittingAt 2)) (fun t => (t.resp, t.txpos)) = some (0xFE, 3) := by
  decide
theorem test_txPop_last :
    field (exec .txPop (emittingAt 131)) (fun t => (t.resp, t.txpos, t.txact)) = some (0x37, 132, false) := by
  decide

/-- V-F12: TX_POP after reset. -/
theorem test_txPop_empty :
    field (exec .txPop { State.reset with resp := 0x55 }) (fun t => (t.err, t.resp, statusView t, t.txpos)) =
      some (0x08, 0x00, 0x10, 0x00) := by decide

/-! ### Validator commands (V-V) -/

/-- Rule R121's example. -/
theorem test_rxArm :
    field (exec (.rxArm true) State.reset) (fun t => (t.rxact, t.rxexp, t.chkseq, t.result)) =
      some (true, 0x01, true, 0x00) := by decide

/-- V-V1: EOT. -/
theorem test_rxPush_eot :
    field (exec (.rxPush 0x04) (armedAt 0)) (fun t => (t.result, t.rxpos, t.rxhdr, statusView t)) =
      some (0x02, 0x01, 0x04, 0x08) := by decide

/-- V-V6: both checks would fail, and BADCMP wins. -/
theorem test_rxPush_badCmp_wins :
    field (exec (.rxPush 0xFF) { armedAt 2 with rxseq := 0x05 }) (fun t => (t.result, t.rxpos)) =
      some (0x04, 0x03) := by decide

/-- V-V12: RX_PUSH after reset. -/
theorem test_rxPush_idle :
    field (exec (.rxPush 0x01) State.reset) (fun t => (t.err, t.rxpos, statusView t)) =
      some (0x10, 0x00, 0x10) := by decide

/-- V-V7: RXSUM = 47 and the checksum byte is 37. -/
theorem test_rxPush_badSum :
    field (exec (.rxPush 0x37) { armedAt 131 with rxsum := 0x47 }) (fun t => (t.result, t.rxpos, t.rxck)) =
      some (0x06, 0x84, 0x37) := by decide

/-- The last payload byte goes to RXBUF[127] and is summed with a wrap (rule R129). -/
theorem test_rxPush_last_payload_byte :
    field (exec (.rxPush 0x02) { armedAt 130 with rxsum := 0xFF })
      (fun t => (bufRead t.rxbuf 127, t.rxsum, t.rxpos, t.rxact)) = some (0x02, 0x01, 131, true) := by decide

/-- V-V17: RX_GET 0x09 of a payload whose byte 9 is 0A. -/
theorem test_rxGet :
    field (exec (.rxGet 9) { State.reset with rxbuf := bufWrite zeroBuffer 9 0x0A }) (·.resp) = some 0x0A := by
  decide

/-! ### System commands (V-Y) -/

theorem test_nop : field (exec .nop (armedAt 7)) id = some (armedAt 7) := rfl

/-- V-Y9. -/
theorem test_rst :
    field (exec .rst { State.reset with err := 0x08, seq := 0x42 }) (fun t => (t.err, t.seq, statusView t)) =
      some (0x00, 0x01, 0x00) := by decide

/-- V-Y10: RD 0x0E reads ERR and does not clear it. -/
theorem test_rd_err :
    field (exec (.rd .err) { State.reset with err := 0x01 }) (fun t => (t.resp, t.err)) = some (0x01, 0x01) := by
  decide

/-- V-F15's STATUS = 13: TXACT, TXFULL and ERRANY. -/
theorem test_rd_status :
    field (exec (.rd .status) { emittingAt 0 with txcnt := 0x80, err := 0x06 }) (·.resp) = some 0x13 := by
  decide

/-! ### Witnesses: the hypotheses of the statements can be met -/

theorem reset_invariant : State.reset.Inv := by
  refine ⟨?_, ?_, ?_, ?_, ?_, ?_, ?_⟩ <;>
    simp [State.reset, zeroBuffer, State.PaddingZero, State.EmissionPosition, State.DoneHasResult,
      State.Ranges]

theorem reset_frameInvariant : State.reset.FrameInv := by
  refine ⟨?_, ?_, ?_, ?_, ?_⟩ <;>
    simp [State.reset, zeroBuffer, State.IdleFresh, State.CapturesUnreached, State.SumOfReceived,
      State.received]

/-- An instruction with its largest operand is well formed. -/
theorem witness_DecodeOfEncodeIsTheInstruction : (Instr.rxGet 127).wf = true :=
  Laws.LegalOperand.rxGet 127

theorem witness_EncodeOfDecodeIsTheWord : decode 0xB00F = .ok (.rd .ctrl) := by decide

theorem witness_OpcodeMapSelectsTheCommand :
    (Mnemonic.RX_ARM, (0x8000 : CommandWord), (0xFFFE : CommandWord), OperandClass.mode) ∈ opcodeMap ∧
    (Mnemonic.RD, (0xB000 : CommandWord), (0xFFF0 : CommandWord), OperandClass.selector) ∈ opcodeMap ∧
    Mnemonic.RX_ARM ≠ Mnemonic.RD ∧ decode 0x8001 = .ok (.rxArm true) ∧
    (0xC000 : CommandWord) &&& 0xC000 = 0xC000 := by decide

/-- An illegal word for each clause of rule R80. -/
theorem witness_IllegalWordsRaiseIllegal :
    decode 0xC000 = .error .unusedOpcode ∧ decode 0x0F00 = .error .reservedBits ∧
    decode 0x70FF = .error .strayOperand ∧ decode 0x80FE = .error .modeBits ∧
    decode 0xA080 = .error .indexBit ∧ decode 0xB010 = .error .selectorBits := by decide

theorem witness_LegalWordsNumber920 :
    mnemonicOf 0xA07F = some .RX_GET ∧ mnemonicOf 0xA080 = none := by decide

theorem witness_AssemblerGivesTheInstructionsWord :
    assembleLine ⟨.RX_GET, some 127⟩ = some 0xA07F := by decide

theorem witness_PseudoCommandsExpand :
    (1 ≤ [(0xFF : Byte)].length ∧ [(0xFF : Byte)].length ≤ 128) ∧
    (1 ≤ (List.replicate 128 (0x00 : Byte)).length ∧ (List.replicate 128 (0x00 : Byte)).length ≤ 128) ∧
    (List.replicate 132 (0x00 : Byte)).length = 132 := by
  simp only [List.length_replicate]
  decide

/-- A legal word, an illegal one, and none, on the port of the reset state. -/
theorem witness_StepRunsTheDecodedCommand :
    (State.reset.withFetchWord 16 0x7000).pending = 0x7000 :: [] ∧ decode 0x7000 = .ok .txPop ∧
    (State.reset.withFetchWord 16 0xFFFF).pending = 0xFFFF :: [] ∧
    decode 0xFFFF = .error .reservedBits ∧ State.reset.pending = [] := by decide

theorem witness_StepsFollowTheCommandStream :
    run [0x3000] State.reset = .next ({ State.reset with seq := 0x02 }, [0x00]) := rfl

theorem witness_SeqIncWrapsThroughZero : ({ State.reset with seq := 0xFF } : State).seq = 0xFF := rfl

/-- STATUS of a next state of TX_CLR. -/
theorem witness_TxClrZeroesTheFramer : IsStatus 0x00 State.reset := by
  refine ⟨rfl, ?_, rfl, rfl, ?_, rfl⟩ <;> decide

/-- A frame in flight; a full buffer; room for the first byte and for the last. -/
theorem witness_TxPutAppendsOrRefuses :
    (emittingAt 0).txact = true ∧
    ((loadedWith 128).txact = false ∧ (loadedWith 128).txcnt.toNat = 128) ∧
    ((loadedWith 0).txact = false ∧ (loadedWith 0).txcnt.toNat < 128) ∧
    ((loadedWith 127).txact = false ∧ (loadedWith 127).txcnt.toNat < 128) ∧
    IsStatus 0x02 (loadedWith 128) := by
  refine ⟨rfl, by decide, by decide, by decide, rfl, ?_, rfl, rfl, ?_, rfl⟩ <;> decide

/-- The positions where the clauses meet: 0, 1, 2, 3, 130 and 131. -/
theorem witness_FrameBytesFollowTheLayout :
    (0 : Fin 132).val = 0 ∧ (1 : Fin 132).val = 1 ∧ (2 : Fin 132).val = 2 ∧
    (3 : Fin 132).val = 3 + (0 : Fin 128).val ∧ (130 : Fin 132).val = 3 + (127 : Fin 128).val ∧
    (131 : Fin 132).val = 131 := by decide

theorem witness_TxPopEmitsTheNextByte :
    State.reset.txact = false ∧
    ((emittingAt 0).txact = true ∧ (emittingAt 0).txpos.toNat < 131) ∧
    ((emittingAt 130).txact = true ∧ (emittingAt 130).txpos.toNat < 131) ∧
    ((emittingAt 131).txact = true ∧ (emittingAt 131).txpos.toNat = 131) := by decide

theorem witness_RxPushRefusedUnlessArmed : State.reset.rxact = false := rfl

/-- SOH, EOT and CAN in the header position. -/
theorem witness_HeaderByteDecides :
    (armedAt 0).rxact = true ∧ (armedAt 0).rxpos.toNat = 0 ∧
    (0x18 : Byte) ≠ 0x01 ∧ (0x18 : Byte) ≠ 0x04 := by decide

theorem witness_SequenceByteIsStored : (armedAt 1).rxact = true ∧ (armedAt 1).rxpos.toNat = 1 := by decide

/-- A wrong complement; a right one with the wrong number checked; and each way to pass. -/
theorem witness_ComplementByteDecides :
    (armedAt 2).rxact = true ∧ (armedAt 2).rxpos.toNat = 2 ∧
    (0xFF : Byte) ≠ 0xFF - (armedAt 2).rxseq ∧
    ((0xFA : Byte) = 0xFF - { armedAt 2 with rxseq := 0x05 }.rxseq ∧
      { armedAt 2 with rxseq := 0x05 }.chkseq = true ∧
      { armedAt 2 with rxseq := 0x05 }.rxseq ≠ { armedAt 2 with rxseq := 0x05 }.rxexp) ∧
    ((0xFE : Byte) = 0xFF - (armedAt 2).rxseq ∧ (armedAt 2).rxseq = (armedAt 2).rxexp) ∧
    { armedAt 2 with chkseq := false }.chkseq = false := by decide

/-- The first and the last payload position. -/
theorem witness_PayloadByteIsStoredAndSummed :
    ((armedAt 3).rxact = true ∧ (armedAt 3).rxpos.toNat = 3 + (0 : Fin 128).val) ∧
    ((armedAt 130).rxact = true ∧ (armedAt 130).rxpos.toNat = 3 + (127 : Fin 128).val) := by decide

theorem witness_ChecksumByteDecides :
    (armedAt 131).rxact = true ∧ (armedAt 131).rxpos.toNat = 131 ∧
    (0x00 : Byte) = (armedAt 131).rxsum ∧ (0x01 : Byte) ≠ (armedAt 131).rxsum := by decide

/-- The first state past each range. -/
theorem witness_FaultsOnlyOutsideTheRanges :
    ((loadedWith 129).txact = false ∧ 128 < (loadedWith 129).txcnt.toNat) ∧
    ((emittingAt 132).txact = true ∧ 131 < (emittingAt 132).txpos.toNat) ∧
    ((armedAt 132).rxact = true ∧ 131 < (armedAt 132).rxpos.toNat) := by decide

theorem witness_EveryStepKeepsTheInvariants :
    State.reset.Inv ∧ step State.reset = .next State.reset := ⟨reset_invariant, rfl⟩

theorem witness_ReachableStatesSatisfyTheInvariants :
    run [0x8001, 0x9004] State.reset = .next
      ({ State.reset with
          rxdone := true, result := 0x02, rxpos := 0x01, rxhdr := 0x04, rxexp := 0x01, chkseq := true },
        [0x00, 0x00]) := rfl

theorem witness_ReachableVerdictsMeanWhatTheySay :
    run [0x6000] State.reset = .next
      ({ State.reset with txseq := 0x01, txsum := checksum zeroBuffer, txact := true }, [0x00]) := rfl

theorem witness_NoStepStopsUnderTheInvariants : State.reset.Inv := reset_invariant

theorem witness_EveryStepKeepsTheFrameInvariants :
    State.reset.Inv ∧ State.reset.FrameInv ∧ step State.reset = .next State.reset :=
  ⟨reset_invariant, reset_frameInvariant, rfl⟩

/-- A frame in flight with the checksum of its payload. -/
theorem witness_PayloadMatchesTheLatchedChecksum :
    ({ State.reset with txact := true, txsum := checksum zeroBuffer } : State).txact = true ∧
    State.LatchedChecksum { State.reset with txact := true, txsum := checksum zeroBuffer } :=
  ⟨rfl, fun _ => rfl⟩

/-- A command word that answers a next state and is none of SEQ_SET, SEQ_INC and RST. -/
theorem witness_OnlySeqSetSeqIncRstWriteSeq :
    command 0x0000 State.reset = .next State.reset ∧ (∀ b : Byte, (0x0000 : CommandWord) ≠ seqSetWord b) ∧
    (0x0000 : CommandWord) ≠ 0x3000 ∧ (0x0000 : CommandWord) ≠ 0x1000 :=
  ⟨rfl, by decide, by decide, by decide⟩

theorem witness_RegistersWrittenOnlyByTheirCommands :
    exec .seqInc State.reset = .next { State.reset with seq := 0x02 } ∧
    Instr.seqInc.mnemonic ∉ [Mnemonic.TX_CLR, .TX_PUT, .RST] := ⟨rfl, by decide⟩

/-- A next state of TX_POP with a frame, of TX_POP without one, of RX_GET, and of an illegal word. -/
theorem witness_RespWrittenOnlyByItsCommands :
    field (command 0x7000 (emittingAt 130)) (·.resp) = some 0x00 ∧
    field (command 0x7000 State.reset) (·.resp) = some 0x00 ∧
    field (command 0xA07F State.reset) (·.resp) = some 0x00 ∧
    field (command 0xFFFF State.reset) (·.err) = some 0x01 := by decide

/-- TX_POP with no frame answers a next state and raises a bit; RST answers one too. -/
theorem witness_ErrorsAreTheFiveCauses :
    command 0x7000 State.reset = .next { State.reset with err := 0x08, resp := 0x00 } ∧
    raisedBits 0x7000 State.reset = 0x08 ∧ command 0x1000 State.reset = .next State.reset :=
  ⟨rfl, by decide, rfl⟩

/-- A bit raised again, and a bit that stays. -/
theorem witness_ErrBitsAreSticky :
    command 0x7000 { State.reset with err := 0x08 } = .next { State.reset with err := 0x08 } ∧
    (0x08 : Byte) ||| raisedBits 0x7000 State.reset = 0x08 ∧ (0x08 : Byte).getLsbD 3 = true :=
  ⟨rfl, by decide, by decide⟩

theorem witness_ErrNeverBlocksACommand :
    command 0xB001 State.reset = .next { State.reset with resp := 0x01 } ∧
    decode 0xB001 ≠ .ok (.rd .status) ∧ decode 0xB001 ≠ .ok (.rd .err) := ⟨rfl, by decide, by decide⟩

/-- A byte that ends the frame and one that does not. -/
theorem witness_VerdictsAreNotErrors :
    (armedAt 0).rxact = true ∧
    field (exec (.rxPush 0x04) (armedAt 0)) (·.rxact) = some false ∧
    field (exec (.rxPush 0x01) (armedAt 0)) (·.rxact) = some true := by decide

theorem witness_ReadsAndTheirSideEffects :
    (emittingAt 130).txact = true ∧ (emittingAt 130).txpos.toNat < 131 ∧
    (Instr.rd .status).mnemonic = .RD ∧ (Instr.rxGet 0).mnemonic = .RX_GET := by decide

/-- A verdict leaves ARMED, and RX_ARM enters it. -/
theorem witness_OneFramePerArming :
    field (command (rxPushWord 0x04) (armedAt 0)) (·.rxact) = some false ∧ (armedAt 0).rxact = true ∧
    field (command 0x8000 State.reset) (·.rxact) = some true ∧ State.reset.rxact = false := by decide

theorem witness_SequenceNumbersAreLatched :
    (Instr.seqSet 0x33).mnemonic = .SEQ_SET ∧ Instr.seqInc.mnemonic = .SEQ_INC := by decide

/-- States that agree on one datapath and differ in the other. -/
theorem witness_DatapathsShareOnlySeq :
    SameFramer State.reset (armedAt 7) ∧ SameValidator State.reset (emittingAt 7) ∧
    command 0x0000 State.reset = .next State.reset ∧ command 0x0000 (armedAt 7) = .next (armedAt 7) ∧
    command 0x0000 (emittingAt 7) = .next (emittingAt 7) :=
  ⟨⟨rfl, rfl, rfl, rfl, rfl, rfl, rfl⟩,
    ⟨rfl, rfl, rfl, rfl, rfl, rfl, rfl, rfl, rfl, rfl, rfl, rfl, rfl⟩, rfl, rfl, rfl⟩

/-- Two states that differ in the response port and the host's stream alone. -/
theorem witness_NoHiddenState :
    let s := State.reset
    let t : State := { State.reset with resp := 0x55, pending := [0x0000] }
    s.Inv ∧ t.Inv ∧
    (∀ (v : RegView) (a b : State), exec (.rd v) s = .next a → exec (.rd v) t = .next b →
      a.resp = b.resp) ∧
    (∀ (i : BufIndex) (a b : State), exec (.rxGet i) s = .next a → exec (.rxGet i) t = .next b →
      a.resp = b.resp) ∧
    (∀ a b : State, exec .txFrame s = .next a → exec .txFrame t = .next b →
      ∀ k : Fin 132, frameByte a k = frameByte b k) := by
  refine ⟨reset_invariant, reset_invariant, ?_, ?_, ?_⟩
  · intro v a b ha hb
    cases ha
    cases hb
    cases v <;> rfl
  · intro i a b ha hb
    cases ha
    cases hb
    rfl
  · intro a b ha hb k
    cases ha
    cases hb
    rfl

theorem witness_SequenceArithmeticLaws : 1 ≤ 1 ∧ 1 ≤ 257 := by decide

/-- A byte that differs, two buffers whose differences cancel, and one that is a reordering. -/
theorem witness_ChecksumLaws :
    (0x01 : Byte) ≠ State.reset.txbuf[(0 : Fin 128)] ∧
    (∑ i : Fin 128, (State.reset.txbuf[i] - State.reset.txbuf[i])) = 0 ∧
    State.reset.txbuf.toList.Perm State.reset.txbuf.toList := by
  refine ⟨?_, ?_, List.Perm.refl _⟩ <;> simp [State.reset, zeroBuffer]

theorem witness_FramerEmitsTheEncodedFrame :
    ([] : List Byte).length ≤ 128 ∧ (List.replicate 128 (0xFF : Byte)).length ≤ 128 := by
  simp only [List.length_replicate]
  decide

theorem witness_RetryEmitsTheIdenticalFrame : 0 ≤ 132 ∧ 132 ≤ 132 := by decide

theorem witness_EmissionIsCountedByTxpos : 0 ≤ 132 ∧ 132 ≤ 132 := by decide

/-- Every verdict takes at least one byte, so there is an n below it. -/
theorem witness_EveryFrameGetsItsVerdict :
    0 < (frameVerdict true 0x01 (Vector.replicate 132 0x04)).bytesTaken ∧
    frameVerdict true 0x01 (Vector.replicate 132 0x04) = .eot := by decide

/-- Mode 0 with any SEQ, mode 1 with the frame's number, and mode 1 with another. -/
theorem witness_EncodedFrameIsDecoded :
    State.reset.seq = 0x01 ∧ State.reset.seq ≠ 0x05 := by decide

end Sys2Proof.Tests
end

section
/-! Runs: how a run of command words comes apart, and the one induction over runs. -/

namespace Sys2Proof.Machine

/-- A run of a word and more words is the word's command and then the run of the others. -/
theorem run_cons_next {w : CommandWord} {ws : List CommandWord} {s u : State} {rs : List Byte}
    (h : run (w :: ws) s = .next (u, rs)) :
    ∃ t qs, command w s = .next t ∧ run ws t = .next (u, qs) ∧ rs = t.resp :: qs := by
  unfold run at h
  split at h
  · rename_i t hc
    split at h
    · rename_i u' qs hr
      cases h
      exact ⟨t, qs, hc, hr, rfl⟩
    · cases h
    · cases h
  · cases h
  · cases h

/-- What every command word keeps, every run keeps. -/
theorem run_keeps {P : State → Prop} (hP : ∀ w s t, P s → command w s = .next t → P t)
    {ws : List CommandWord} {s t : State} {rs : List Byte} (hs : P s)
    (h : run ws s = .next (t, rs)) : P t := by
  induction ws generalizing s rs with
  | nil =>
    cases h
    exact hs
  | cons w ws ih =>
    obtain ⟨u, qs, hc, hr, -⟩ := run_cons_next h
    exact ih (hP w s u hs hc) hr

end Sys2Proof.Machine
end

section
/-! The invariants of rule R41 in three parts, which no command mixes: the framer's (I1, I2, TXCNT's
range), the validator's (I3 to I6, RESULT's range) and ERR's. Every command keeps all three. -/

namespace Sys2Proof.Machine

/-- What rule R41 says of the framer. -/
def State.FramerInv (s : State) : Prop :=
  s.PaddingZero ∧ s.EmissionPosition ∧ s.txcnt.toNat ≤ 128

/-- What rule R41 says of the validator. -/
def State.ValidatorInv (s : State) : Prop :=
  s.ValidatorState ∧ s.DoneHasResult ∧ s.ArmedPosition ∧ s.RunningSum ∧ s.result.toNat ≤ 6

/-- What rule R41 says of ERR. -/
def State.ErrInv (s : State) : Prop := s.err &&& 0xE0 = 0x00

theorem inv_iff (s : State) : s.Inv ↔ s.FramerInv ∧ s.ValidatorInv ∧ s.ErrInv :=
  ⟨fun ⟨hpad, hemit, hstate, hdone, harmed, hsum, herr, hres, hcnt⟩ =>
      ⟨⟨hpad, hemit, hcnt⟩, ⟨hstate, hdone, harmed, hsum, hres⟩, herr⟩,
    fun ⟨⟨hpad, hemit, hcnt⟩, ⟨hstate, hdone, harmed, hsum, hres⟩, herr⟩ =>
      ⟨hpad, hemit, hstate, hdone, harmed, hsum, herr, hres, hcnt⟩⟩

/-! ### ERR -/

/-- Every cause of rule R150 has a bit below bit 5. -/
theorem setErr_keeps_errInv (e : ErrCause) {s : State} (h : s.ErrInv) : (setErr e s).ErrInv := by
  have hbit : (1#8 <<< e.bit) &&& 0xE0 = 0x00 := by cases e <;> rfl
  unfold State.ErrInv at h ⊢
  rw [setErr_err, BitVec.and_or_distrib_right, h, hbit]
  rfl

theorem setErr_keeps_inv (e : ErrCause) {s : State} (h : s.Inv) : (setErr e s).Inv := by
  obtain ⟨hf, hv, he⟩ := (inv_iff s).1 h
  exact (inv_iff _).2 ⟨hf, hv, setErr_keeps_errInv e he⟩

theorem respond_keeps_inv (v : Byte) {s : State} (h : s.Inv) : (respond v s).Inv := h

/-! ### The framer -/

/-- With no payload byte loaded and no frame begun, a zero buffer is all the framer needs. -/
theorem framerInv_of_cleared {s : State} (hb : s.txbuf = zeroBuffer) (hc : s.txcnt = 0x00)
    (hp : s.txpos = 0x00) (ha : s.txact = false) : s.FramerInv := by
  refine ⟨fun i _ => ?_, ?_, ?_⟩
  · rw [hb]
    exact bufRead_zeroBuffer i
  · simp [State.EmissionPosition, hp, ha]
  · simp [hc]

theorem txPut_keeps_framerInv (b : Byte) {s : State} (hl : s.txcnt.toNat < 128) (h : s.FramerInv) :
    { s with txbuf := bufWrite s.txbuf ⟨s.txcnt.toNat, hl⟩ b, txcnt := s.txcnt + 1 }.FramerInv := by
  obtain ⟨hpad, hpos, -⟩ := h
  have hcnt : (s.txcnt + 1).toNat = s.txcnt.toNat + 1 := toNat_succ_of_lt (by omega)
  refine ⟨fun i hi => ?_, hpos, ?_⟩
  · have hi' : s.txcnt.toNat + 1 ≤ i.val := hcnt ▸ hi
    have hne : i ≠ ⟨s.txcnt.toNat, hl⟩ := fun e => by simp [e] at hi'
    exact (bufRead_bufWrite_other s.txbuf b hne).trans (hpad i (by omega))
  · show (s.txcnt + 1).toNat ≤ 128
    omega

theorem txFrame_keeps_framerInv {s : State} (h : s.FramerInv) :
    { s with txseq := s.seq, txsum := checksum s.txbuf, txpos := 0x00, txact := true }.FramerInv := by
  obtain ⟨hpad, -, hcnt⟩ := h
  exact ⟨hpad, by simp [State.EmissionPosition], hcnt⟩

theorem txPop_keeps_framerInv (v : Byte) {s : State} (hl : s.txpos.toNat < 132) (h : s.FramerInv) :
    { s with resp := v, txpos := s.txpos + 1, txact := decide (s.txpos + 1 ≠ 132) }.FramerInv := by
  obtain ⟨hpad, -, hcnt⟩ := h
  have hpos : (s.txpos + 1).toNat = s.txpos.toNat + 1 := toNat_succ_of_lt (by omega)
  refine ⟨hpad, ⟨fun ha => ?_, fun ha => ?_⟩, hcnt⟩
  · have hne : (s.txpos + 1).toNat ≠ 132 := fun e => of_decide_eq_true ha (BitVec.eq_of_toNat_eq e)
    show (s.txpos + 1).toNat ≤ 131
    omega
  · have heq : s.txpos + 1 = 132 := by simpa using ha
    exact .inr (congrArg BitVec.toNat heq)

/-! ### The validator -/

theorem Verdict.code_eq_zero_iff (c : Verdict) : c.code = 0x00 ↔ c = .none := by
  cases c <;> decide

theorem Verdict.code_toNat_le (c : Verdict) : c.code.toNat ≤ 6 := by
  cases c <;> decide

/-- A validator that is not ARMED satisfies its invariants when RXDONE and RESULT agree. -/
theorem validatorInv_of_not_armed {s : State} (ha : s.rxact = false) (hd : s.DoneHasResult)
    (hr : s.result.toNat ≤ 6) : s.ValidatorInv := by
  refine ⟨?_, hd, ?_, ?_, hr⟩ <;> simp [State.ArmedPosition, State.RunningSum, ha]

/-- An ARMED validator satisfies its invariants when it has room for a byte, no verdict, and the sum of
what it received. -/
theorem validatorInv_of_armed {s : State} (hd : s.rxdone = false) (hr : s.result = 0x00)
    (hp : s.rxpos.toNat ≤ 131) (hsum : s.SumOfReceived) : s.ValidatorInv := by
  refine ⟨?_, ?_, fun _ => ⟨hp, hr⟩, fun _ => hsum, ?_⟩
  · simp [hd]
  · simp [State.DoneHasResult, hd, hr]
  · simp [hr]

theorem rxArm_validatorInv (m : Bool) (s : State) :
    { s with
      rxact := true, rxdone := false, result := Verdict.none.code, rxpos := 0x00, rxsum := 0x00,
      rxhdr := 0x00, rxseq := 0x00, rxcmp := 0x00, rxck := 0x00, rxexp := s.seq,
      chkseq := m }.ValidatorInv :=
  validatorInv_of_armed rfl rfl (by simp) (by simp [State.SumOfReceived, State.received])

/-- The stages of rule R129 store and add their byte; the others leave RXBUF and RXSUM. -/
theorem rxStage_rxbuf_rxsum (p : Fin 132) (b : Byte) (s : State) :
    (∃ i : Fin 128, p.val = 3 + i.val ∧ (rxStage p b s).rxbuf = bufWrite s.rxbuf i b ∧
      (rxStage p b s).rxsum = s.rxsum + b) ∨
    ((p.val < 3 ∨ p.val = 131) ∧ (rxStage p b s).rxbuf = s.rxbuf ∧
      (rxStage p b s).rxsum = s.rxsum) := by
  rcases rxStage_cases p b s with ⟨hp, e⟩ | ⟨hp, e⟩ | ⟨hp, e⟩ | ⟨i, hp, e⟩ | ⟨hp, e⟩ <;> rw [e]
  · refine .inr ⟨by omega, ?_⟩
    rcases headerStage_cases b s with ⟨-, e⟩ | ⟨-, e⟩ | ⟨-, -, e⟩ <;> rw [e] <;> exact ⟨rfl, rfl⟩
  · exact .inr ⟨by omega, rfl, rfl⟩
  · refine .inr ⟨by omega, ?_⟩
    rcases cmpStage_cases b s with ⟨-, e⟩ | ⟨-, -, -, e⟩ | ⟨-, -, e⟩ <;> rw [e] <;> exact ⟨rfl, rfl⟩
  · exact .inl ⟨i, hp, rfl, rfl⟩
  · refine .inr ⟨by omega, ?_⟩
    rcases sumStage_cases b s with ⟨-, e⟩ | ⟨-, e⟩ <;> rw [e] <;> exact ⟨rfl, rfl⟩

theorem rxStage_last {p : Fin 132} (hp : p.val = 131) (b : Byte) (s : State) :
    rxStage p b s = sumStage b s := by
  simp [rxStage, hp]

/-- The last stage always ends the frame (rule R130). -/
theorem rxStage_last_rxact {p : Fin 132} (hp : p.val = 131) (b : Byte) (s : State) :
    (rxStage p b s).rxact = false := by
  rw [rxStage_last hp]
  rcases sumStage_cases b s with ⟨-, e⟩ | ⟨-, e⟩ <;> rw [e] <;> rfl

/-- Every stage keeps RXSUM the sum of the payload received, the position being advanced first (rules R32,
R124). -/
theorem rxStage_keeps_sumOfReceived (b : Byte) {s : State} (hl : s.rxpos.toNat < 132)
    (h : s.SumOfReceived) :
    (rxStage ⟨s.rxpos.toNat, hl⟩ b { s with rxpos := s.rxpos + 1 }).SumOfReceived := by
  have hpos : (s.rxpos + 1).toNat = s.rxpos.toNat + 1 := toNat_succ_of_lt (by omega)
  unfold State.SumOfReceived State.received at h ⊢
  rw [rxStage_rxpos]
  simp only [hpos]
  rcases rxStage_rxbuf_rxsum ⟨s.rxpos.toNat, hl⟩ b { s with rxpos := s.rxpos + 1 } with
    ⟨i, hp, hbuf, hsum⟩ | ⟨hp, hbuf, hsum⟩ <;> rw [hbuf, hsum]
  · have hold : min s.rxpos.toNat 131 - 3 = i.val := by simp only at hp; omega
    have hnew : min (s.rxpos.toNat + 1) 131 - 3 = i.val + 1 := by simp only at hp; omega
    rw [hold] at h
    rw [hnew, sumBytes_take_bufWrite, ← h]
  · have hsame : min (s.rxpos.toNat + 1) 131 - 3 = min s.rxpos.toNat 131 - 3 := by
      simp only at hp; omega
    rw [hsame, ← h]

theorem rxPush_keeps_validatorInv (b : Byte) {s : State} (ha : s.rxact = true)
    (hl : s.rxpos.toNat < 132) (h : s.ValidatorInv) :
    (rxStage ⟨s.rxpos.toNat, hl⟩ b { s with rxpos := s.rxpos + 1 }).ValidatorInv := by
  obtain ⟨hstate, -, harmed, hsum, -⟩ := h
  rcases rxStage_verdict ⟨s.rxpos.toNat, hl⟩ b { s with rxpos := s.rxpos + 1 } ha with
    ⟨hact, hdone, c, hc, hres⟩ | ⟨hact, hdone, hres⟩
  · refine validatorInv_of_not_armed hact ?_ (hres ▸ c.code_toNat_le)
    rw [State.DoneHasResult, hdone, hres, ne_eq, Verdict.code_eq_zero_iff]
    exact iff_of_true rfl hc
  · have hnotlast : s.rxpos.toNat ≠ 131 := fun hp => by
      rw [rxStage_last_rxact hp] at hact
      cases hact
    refine validatorInv_of_armed ?_ (hres.trans (harmed ha).2) ?_
      (rxStage_keeps_sumOfReceived b hl (hsum ha))
    · rw [hdone]
      simpa using fun hd => hstate ⟨ha, hd⟩
    · rw [rxStage_rxpos]
      show (s.rxpos + 1).toNat ≤ 131
      rw [toNat_succ_of_lt (by omega)]
      omega

/-! ### The whole machine -/

theorem rxStage_keeps_framerInv (p : Fin 132) (b : Byte) {s : State} (h : s.FramerInv) :
    (rxStage p b s).FramerInv := by
  simpa [State.FramerInv, State.PaddingZero, State.EmissionPosition] using h

theorem rxStage_keeps_errInv (p : Fin 132) (b : Byte) {s : State} (h : s.ErrInv) :
    (rxStage p b s).ErrInv := by
  simpa [State.ErrInv] using h

theorem resetRegisters_inv (s : State) : (resetRegisters s).Inv :=
  (inv_iff _).2 ⟨framerInv_of_cleared rfl rfl rfl rfl,
    validatorInv_of_not_armed rfl (by simp [State.DoneHasResult]) (by simp),
    by simp [State.ErrInv]⟩

/-- Every instruction keeps I1 to I7 (rule R41). -/
theorem exec_keeps_inv {i : Instr} {s t : State} (hs : s.Inv) (h : exec i s = .next t) : t.Inv := by
  obtain ⟨hf, hv, he⟩ := (inv_iff s).1 hs
  cases i with
  | nop | seqSet b | seqInc | rxGet k | rd v =>
    cases h
    exact hs
  | rst =>
    cases h
    exact resetRegisters_inv s
  | txClr =>
    cases h
    exact (inv_iff _).2 ⟨framerInv_of_cleared rfl rfl rfl rfl, hv, he⟩
  | txPut b =>
    rcases execTxPut_next h with ⟨-, rfl⟩ | ⟨-, -, rfl⟩ | ⟨-, -, hl, rfl⟩
    · exact setErr_keeps_inv _ hs
    · exact setErr_keeps_inv _ hs
    · exact (inv_iff _).2 ⟨txPut_keeps_framerInv b hl hf, hv, he⟩
  | txFrame =>
    cases h
    exact (inv_iff _).2 ⟨txFrame_keeps_framerInv hf, hv, he⟩
  | txPop =>
    rcases execTxPop_next h with ⟨-, rfl⟩ | ⟨-, hl, rfl⟩
    · exact setErr_keeps_inv _ (respond_keeps_inv _ hs)
    · exact (inv_iff _).2 ⟨txPop_keeps_framerInv _ hl hf, hv, he⟩
  | rxArm m =>
    cases h
    exact (inv_iff _).2 ⟨hf, rxArm_validatorInv m s, he⟩
  | rxPush b =>
    rcases execRxPush_next h with ⟨-, rfl⟩ | ⟨ha, hl, rfl⟩
    · exact setErr_keeps_inv _ hs
    · exact (inv_iff _).2 ⟨rxStage_keeps_framerInv _ b hf, rxPush_keeps_validatorInv b ha hl hv,
        rxStage_keeps_errInv _ b he⟩

/-- Every command word, legal or not, keeps I1 to I7 (rule R41). -/
theorem command_keeps_inv {w : CommandWord} {s t : State} (hs : s.Inv)
    (h : command w s = .next t) : t.Inv := by
  rcases command_next h with ⟨i, -, hi⟩ | ⟨e, -, rfl⟩
  · exact exec_keeps_inv hs hi
  · exact setErr_keeps_inv _ hs

/-- Settles O32: reset satisfies I1 to I7, every command word keeps them, and so does every run. -/
theorem reachableStatesSatisfyTheInvariants : Obligations.ReachableStatesSatisfyTheInvariants := by
  unfold Obligations.ReachableStatesSatisfyTheInvariants
  intro ws t resps h
  exact run_keeps (P := State.Inv) (fun _ _ _ => command_keeps_inv) (resetRegisters_inv State.reset) h

end Sys2Proof.Machine
end

section
/-! Reads: the register views of rule R40, the frame byte function of rule R107 as a function of a number,
and the words of one opcode. -/

namespace Sys2Proof

theorem decode_of_rsvField_eq_zero {w : CommandWord} (h : rsvField w = 0) :
    decode w = decodeRow (opField w) (immField w) := by
  simp only [decode, h, ne_eq, not_true_eq_false, if_false]

/-- The words of an opcode follow from its row of rule R75. -/
theorem wordsOf_of_decodeRow {op : BitVec 4} {legal : Byte → Prop} {mk : Byte → Instr}
    (hok : ∀ imm, legal imm → decodeRow op imm = .ok (mk imm))
    (herr : ∀ imm, ¬legal imm → ∃ e, decodeRow op imm = .error e) : WordsOf op legal mk := by
  rintro w rfl
  refine ⟨fun hrsv hl => ?_, fun hn => ?_⟩
  · rw [decode_of_rsvField_eq_zero hrsv]
    exact hok _ hl
  · by_cases hrsv : rsvField w = 0
    · rw [decode_of_rsvField_eq_zero hrsv]
      exact herr _ fun hl => hn ⟨hrsv, hl⟩
    · exact ⟨_, decode_of_rsvField_ne_zero w hrsv⟩

namespace Machine

/-- The bits of a byte assembled from five flags. -/
theorem flagBits_bits (a b c d e : Bool) :
    let v := flagBit 0 a ||| flagBit 1 b ||| flagBit 2 c ||| flagBit 3 d ||| flagBit 4 e
    v.getLsbD 0 = a ∧ v.getLsbD 1 = b ∧ v.getLsbD 2 = c ∧ v.getLsbD 3 = d ∧ v.getLsbD 4 = e ∧
      v.extractLsb' 5 3 = 0 := by
  revert a b c d e
  decide

/-- The STATUS view is the byte of rule R39. -/
theorem statusView_isStatus (s : State) : IsStatus (statusView s) s := by
  obtain ⟨h0, h1, h2, h3, h4, h5⟩ := flagBits_bits s.txact (txFull s) s.rxact s.rxdone (errAny s)
  refine ⟨h0, ?_, h2, h3, ?_, h5⟩
  · rw [statusView, h1, txFull, decide_eq_true_iff, ← BitVec.toNat_inj]
    rfl
  · rw [statusView, h4, errAny, decide_eq_true_iff]
    rfl

/-- ERR reads its five bits, with bits 7:5 reading 0 (rules R37, R40). -/
theorem errView_bits (s : State) :
    (∀ k, k < 5 → (errView s).getLsbD k = s.err.getLsbD k) ∧ (errView s).extractLsb' 5 3 = 0 := by
  refine ⟨fun k hk => ?_, ?_⟩
  · have hmask : ∀ k < 5, (0x1F : Byte).getLsbD k = true := by decide
    rw [errView, BitVec.getLsbD_and, hmask k hk, Bool.and_true]
  · rw [errView, BitVec.extractLsb'_and]
    exact BitVec.and_zero

/-- Each view reads the byte of its selector's row of rule R40. -/
theorem viewOf_selectorReads (v : RegView) (s : State) : SelectorReads v.selector (viewOf v s) s := by
  cases v with
  | status => exact statusView_isStatus s
  | err => exact errView_bits s
  | ctrl =>
    show (ctrlView s).getLsbD 0 = s.chkseq ∧ (ctrlView s).extractLsb' 1 7 = 0
    unfold ctrlView
    cases s.chkseq <;> decide
  | _ => rfl

/-- RD's row: the selectors 0x0 to 0xF are legal (rules R72, R75). -/
theorem wordsOf_rd : WordsOf 0xB (fun imm => imm.extractLsb' 4 4 = 0)
    (fun imm => .rd (RegView.ofSelector (imm.setWidth 4))) := by
  refine wordsOf_of_decodeRow (fun imm hl => ?_) (fun imm hn => ⟨.selectorBits, if_neg hn⟩)
  rw [BitVec.setWidth_eq_extractLsb' (by decide)]
  exact if_pos hl

/-- Settles O28: RD's words, and what each selector reads, view by view. -/
theorem rdReadsTheSelectedView : Obligations.RdReadsTheSelectedView := by
  unfold Obligations.RdReadsTheSelectedView
  refine ⟨wordsOf_rd, fun v => ⟨_, ofSelector_selector v⟩, fun sel s => ⟨_, rfl, ?_⟩⟩
  have h := viewOf_selectorReads (RegView.ofSelector sel) s
  rwa [selector_ofSelector] at h

/-- The model's frame byte function is F(k) of rule R107. -/
theorem frameByte_eq_frameAt (s : State) (k : Fin 132) :
    frameByte s k = frameAt s.txseq s.txbuf s.txsum k.val := by
  obtain ⟨k, hk⟩ := k
  unfold frameByte frameAt
  by_cases h : k - 3 < 128
  · have h' : k ≤ 130 := by omega
    simp [h, h', Config.soh, complement, bufRead]
  · have h' : ¬k ≤ 130 := by omega
    simp [h, h', Config.soh, complement]

/-- Settles O40: RESP after each command, read off what the command did (rule R38). -/
theorem respWrittenOnlyByItsCommands : Obligations.RespWrittenOnlyByItsCommands := by
  unfold Obligations.RespWrittenOnlyByItsCommands
  intro w s t h
  rcases command_next h with ⟨i, hd, hi⟩ | ⟨e, hd, rfl⟩ <;> rw [hd]
  · cases i with
    | nop | rst | seqSet b | seqInc | txClr | txFrame | rxArm m | rxGet k =>
      cases hi
      rfl
    | txPut b =>
      rcases execTxPut_next hi with ⟨-, rfl⟩ | ⟨-, -, rfl⟩ | ⟨-, -, -, rfl⟩ <;> rfl
    | txPop =>
      rcases execTxPop_next hi with ⟨ha, rfl⟩ | ⟨ha, hl, rfl⟩
      · simp [ha]
      · simp [ha, frameByte_eq_frameAt]
    | rxPush b =>
      rcases execRxPush_next hi with ⟨-, rfl⟩ | ⟨-, hl, rfl⟩
      · rfl
      · simp
    | rd v =>
      cases hi
      exact viewOf_selectorReads v s
  · rfl

end Machine
end Sys2Proof
end

section
/-! Emission: any number of TX_POPs, up to the end of the frame. -/

namespace Sys2Proof.Machine

/-- TX_POP with a frame in flight, with the frame byte and the position as numbers (rule R108). -/
theorem command_txPop {s : State} (ha : s.txact = true) (hl : s.txpos.toNat < 132) :
    ∃ t, command 0x7000 s = .next t ∧
      t = { s with resp := t.resp, txpos := t.txpos, txact := t.txact } ∧
      t.resp = frameAt s.txseq s.txbuf s.txsum s.txpos.toNat ∧
      t.txpos.toNat = s.txpos.toNat + 1 ∧ (t.txact = true ↔ t.txpos.toNat < 132) := by
  have hpos : (s.txpos + 1).toNat = s.txpos.toNat + 1 := toNat_succ_of_lt (by omega)
  have hexec : exec .txPop s = .next { s with
      resp := frameByte s ⟨s.txpos.toNat, hl⟩
      txpos := s.txpos + 1
      txact := decide (s.txpos + 1 ≠ 132) } := by
    show execTxPop s = _
    rw [execTxPop, if_pos ha, dif_pos hl]
  refine ⟨_, (command_of_ok (by decide) s).trans hexec, rfl, frameByte_eq_frameAt _ _, hpos, ?_⟩
  have hlast : s.txpos + 1 = 132 ↔ s.txpos.toNat + 1 = 132 := by
    rw [← BitVec.toNat_inj, hpos]
    rfl
  rw [decide_eq_true_iff, hpos, ne_eq, hlast]
  omega

/-- From a frame begun, n TX_POPs within its 132 bytes emit the next n frame bytes, advance TXPOS by n,
keep TXACT at 1 while there are bytes left, and change nothing else but RESP (rules R26, R107, R108). -/
theorem run_txPops {n : Nat} {s : State} (ha : s.txact = true ↔ s.txpos.toNat < 132)
    (hn : s.txpos.toNat + n ≤ 132) :
    ∃ t, run (List.replicate n 0x7000) s =
        .next (t, (List.range' s.txpos.toNat n).map (frameAt s.txseq s.txbuf s.txsum)) ∧
      t = { s with resp := t.resp, txpos := t.txpos, txact := t.txact } ∧
      t.txpos.toNat = s.txpos.toNat + n ∧ (t.txact = true ↔ t.txpos.toNat < 132) := by
  induction n generalizing s with
  | zero => exact ⟨s, rfl, rfl, rfl, ha⟩
  | succ n ih =>
    have hl : s.txpos.toNat < 132 := by omega
    obtain ⟨u, hcmd, hu, hresp, hpos, hact⟩ := command_txPop (ha.2 hl) hl
    obtain ⟨t, hrun, ht, hpos', hact'⟩ := ih hact (by omega)
    refine ⟨t, ?_, ht.trans (by rw [hu]), by omega, hact'⟩
    have hframe : frameAt u.txseq u.txbuf u.txsum = frameAt s.txseq s.txbuf s.txsum := by rw [hu]
    rw [List.replicate_succ, run_cons_of_next hcmd hrun, hresp, hframe, hpos, List.range'_succ,
      List.map_cons]

/-- TX_FRAME and n TX_POPs within the frame's 132 bytes emit the first n bytes of the frame of the state
before (rules R26, R105, R107, R108). -/
theorem run_txFrame_txPops {n : Nat} (s : State) (hn : n ≤ 132) :
    ∃ t, run (0x6000 :: List.replicate n 0x7000) s =
        .next (t, s.resp :: (List.range n).map (frameAt s.seq s.txbuf (checksum s.txbuf))) ∧
      t = { s with
        txseq := s.seq, txsum := checksum s.txbuf, resp := t.resp, txpos := t.txpos, txact := t.txact } ∧
      t.txpos.toNat = n ∧ (t.txact = true ↔ n < 132) := by
  have hframe : command 0x6000 s = .next
      { s with txseq := s.seq, txsum := checksum s.txbuf, txpos := 0x00, txact := true } :=
    command_of_ok (i := .txFrame) (by decide) s
  obtain ⟨t, hrun, ht, hpos, hact⟩ := run_txPops (n := n)
    (s := { s with txseq := s.seq, txsum := checksum s.txbuf, txpos := 0x00, txact := true })
    (by simp) (by simpa using hn)
  have hpos' : t.txpos.toNat = n := hpos.trans (Nat.zero_add n)
  have hall := run_cons_of_next hframe hrun
  refine ⟨t, ?_, ht, hpos', by rw [hact, hpos']⟩
  rw [List.range_eq_range']
  exact hall

/-- Settles O52: TX_FRAME begins the count, every TX_POP adds one, and TX_CLR and reset zero it. -/
theorem emissionIsCountedByTxpos : Obligations.EmissionIsCountedByTxpos := by
  unfold Obligations.EmissionIsCountedByTxpos
  refine ⟨fun s n hn => ?_, fun s => ⟨_, rfl, rfl, rfl⟩, fun s => ⟨_, rfl, rfl, rfl⟩, rfl, rfl⟩
  obtain ⟨t, hrun, -, hpos, hact⟩ := run_txFrame_txPops s hn
  exact ⟨t, _, hrun, hpos, hact⟩

end Sys2Proof.Machine
end

section
/-! The side effects of the reads (rule R57): TX_POP moves on in the frame, RD and RX_GET write RESP
only. -/

namespace Sys2Proof.Machine

/-- No register view shows RESP (rule R40). -/
@[simp] theorem viewOf_respond (v : RegView) (b : Byte) (s : State) :
    viewOf v (respond b s) = viewOf v s := by
  cases v <;> rfl

/-- RD again reads the same byte, since no view shows the RESP it wrote (rules R40, R57, R142). -/
theorem exec_rd_idempotent (v : RegView) (s : State) :
    exec (.rd v) (respond (viewOf v s) s) = .next (respond (viewOf v s) s) := by
  show Host.Outcome.next (respond (viewOf v (respond (viewOf v s) s)) s) = _
  rw [viewOf_respond]

/-- Two TX_POPs with at least two frame bytes left emit those two; the second ends the frame exactly when
it emits the last byte, F(131) (rules R57, R107, R108). -/
theorem run_two_txPops {s : State} (ha : s.txact = true) (hp : s.txpos.toNat < 131) :
    ∃ t, run [0x7000, 0x7000] s = .next (t,
        [frameAt s.txseq s.txbuf s.txsum s.txpos.toNat,
         frameAt s.txseq s.txbuf s.txsum (s.txpos.toNat + 1)]) ∧
      t.txpos.toNat = s.txpos.toNat + 2 ∧ (t.txact = false ↔ s.txpos.toNat = 130) := by
  obtain ⟨t, hrun, -, hpos, hact⟩ := run_txPops (n := 2) (iff_of_true ha (by omega)) (by omega)
  refine ⟨t, hrun, hpos, ?_⟩
  rw [← Bool.not_eq_true, hact, hpos]
  omega

/-- Settles O45: two TX_POPs are a run of two within the frame, and neither RD nor RX_GET reads the RESP
it writes. -/
theorem readsAndTheirSideEffects : Obligations.ReadsAndTheirSideEffects := by
  unfold Obligations.ReadsAndTheirSideEffects
  refine ⟨fun s => run_two_txPops, fun i s hi => ?_⟩
  cases i with
  | rd v => exact ⟨viewOf v s, rfl, exec_rd_idempotent v s⟩
  | rxGet k => exact ⟨bufRead s.rxbuf (indexOf k), rfl, rfl⟩
  | _ => simp [Instr.mnemonic] at hi

end Sys2Proof.Machine
end

section
/-! The opcode map of rule R73: the row of a mnemonic asks for an opcode, for RSV = 0 and for zeros in some
bits of IMM8. The decoder is said once as rows, and masks, illegal words and counts are read off it. -/

namespace Sys2Proof

/-- The opcode of a mnemonic (rule R73). -/
def Mnemonic.opcode : Mnemonic → BitVec 4
  | .NOP => 0x0
  | .RST => 0x1
  | .SEQ_SET => 0x2
  | .SEQ_INC => 0x3
  | .TX_CLR => 0x4
  | .TX_PUT => 0x5
  | .TX_FRAME => 0x6
  | .TX_POP => 0x7
  | .RX_ARM => 0x8
  | .RX_PUSH => 0x9
  | .RX_GET => 0xA
  | .RD => 0xB

/-- The bits of IMM8 that must be 0 for an operand class (rule R72). -/
def OperandClass.zeroBits : OperandClass → Byte
  | .none => 0xFF
  | .byte => 0x00
  | .mode => 0xFE
  | .index => 0x80
  | .selector => 0xF0

theorem matchWord_eq (m : Mnemonic) : m.matchWord = (m.opcode ++ 0#4) ++ 0#8 := by
  cases m <;> rfl

theorem maskWord_eq (m : Mnemonic) : m.maskWord = 0xFF#8 ++ m.operandClass.zeroBits := by
  cases m <;> rfl

/-- The mnemonics in the order of rule R73's rows. -/
def mnemonics : List Mnemonic := opcodeMap.map Prod.fst

theorem mem_mnemonics (m : Mnemonic) : m ∈ mnemonics := by
  cases m <;> decide

/-- The rows are the model's own `match`, `mask` and operand class. -/
theorem mem_opcodeMap_iff {m : Mnemonic} {mt mk : CommandWord} {c : OperandClass} :
    (m, mt, mk, c) ∈ opcodeMap ↔ mt = m.matchWord ∧ mk = m.maskWord ∧ c = m.operandClass := by
  cases m <;> simp [opcodeMap, Mnemonic.matchWord, Mnemonic.maskWord, Mnemonic.operandClass]

/-- Clause (a) of rule R80. -/
def UnusedOpcode (op : BitVec 4) : Prop := op = 0xC ∨ op = 0xD ∨ op = 0xE ∨ op = 0xF

/-- An opcode is a mnemonic's or one of the four unused ones (rules R73, R74). -/
theorem opcode_or_unused (op : BitVec 4) :
    (∃ m : Mnemonic, m.opcode = op) ∨ UnusedOpcode op := by
  have h : ∀ op : BitVec 4, (∃ m ∈ mnemonics, m.opcode = op) ∨
      op = 0xC ∨ op = 0xD ∨ op = 0xE ∨ op = 0xF := by decide
  exact (h op).imp_left fun ⟨m, _, hm⟩ => ⟨m, hm⟩

theorem and_zeroBits_none (imm : Byte) : imm &&& OperandClass.none.zeroBits = imm :=
  BitVec.and_allOnes

theorem and_zeroBits_mode (imm : Byte) :
    imm &&& OperandClass.mode.zeroBits = 0 ↔ imm.extractLsb' 1 7 = 0 := by
  revert imm
  decide

theorem and_zeroBits_index (imm : Byte) :
    imm &&& OperandClass.index.zeroBits = 0 ↔ imm.getLsbD 7 = false := by
  revert imm
  decide

theorem and_zeroBits_selector (imm : Byte) :
    imm &&& OperandClass.selector.zeroBits = 0 ↔ imm.extractLsb' 4 4 = 0 := by
  revert imm
  decide

/-- What the decoder answers on a row, with RSV = 0: the row's command with IMM8 as its operand bits, or
illegal when a bit of IMM8 that the row wants 0 is set (rules R72, R73, R75). -/
def DecodesAsRow (m : Mnemonic) (imm : Byte) (r : Except IllegalWord Instr) : Prop :=
  ∃ i e, i.mnemonic = m ∧ (imm &&& m.operandClass.zeroBits = 0 → i.imm8 = imm) ∧
    r = if imm &&& m.operandClass.zeroBits = 0 then .ok i else .error e

theorem decodeNone_decodesAsRow {m : Mnemonic} {i : Instr} (imm : Byte) (hm : i.mnemonic = m)
    (hi : i.imm8 = 0x00) (hc : m.operandClass = .none) : DecodesAsRow m imm (decodeNone imm i) := by
  refine ⟨i, .strayOperand, hm, ?_, ?_⟩ <;> rw [hc, and_zeroBits_none]
  · exact fun h => hi.trans h.symm
  · rfl

theorem ok_decodesAsRow {m : Mnemonic} {i : Instr} {imm : Byte} (hm : i.mnemonic = m)
    (hi : i.imm8 = imm) (hc : m.operandClass = .byte) : DecodesAsRow m imm (.ok i) :=
  ⟨i, .strayOperand, hm, fun _ => hi, by rw [hc, if_pos (by exact BitVec.and_zero)]⟩

theorem decodeMode_decodesAsRow (imm : Byte) : DecodesAsRow .RX_ARM imm (decodeMode imm) := by
  have himm8 : ∀ imm : Byte, imm &&& 0xFE = 0 → (Instr.rxArm (imm.getLsbD 0)).imm8 = imm := by decide
  exact ⟨_, .modeBits, rfl, himm8 imm, if_congr (and_zeroBits_mode imm).symm rfl rfl⟩

theorem decodeIndex_decodesAsRow (imm : Byte) : DecodesAsRow .RX_GET imm (decodeIndex imm) := by
  have himm8 : ∀ imm : Byte, imm &&& 0x80 = 0 → (Instr.rxGet (imm.extractLsb' 0 7)).imm8 = imm := by
    decide
  exact ⟨_, .indexBit, rfl, himm8 imm, if_congr (and_zeroBits_index imm).symm rfl rfl⟩

theorem decodeSelector_decodesAsRow (imm : Byte) : DecodesAsRow .RD imm (decodeSelector imm) := by
  have himm8 : ∀ imm : Byte, imm &&& 0xF0 = 0 →
      (Instr.rd (RegView.ofSelector (imm.extractLsb' 0 4))).imm8 = imm := by decide
  exact ⟨_, .selectorBits, rfl, himm8 imm, if_congr (and_zeroBits_selector imm).symm rfl rfl⟩

/-- Each opcode's arm of rule R75 is its mnemonic's row of rule R73. -/
theorem decodeRow_opcode (m : Mnemonic) (imm : Byte) :
    DecodesAsRow m imm (decodeRow m.opcode imm) := by
  cases m with
  | NOP => exact decodeNone_decodesAsRow (i := .nop) imm rfl rfl rfl
  | RST => exact decodeNone_decodesAsRow (i := .rst) imm rfl rfl rfl
  | SEQ_INC => exact decodeNone_decodesAsRow (i := .seqInc) imm rfl rfl rfl
  | TX_CLR => exact decodeNone_decodesAsRow (i := .txClr) imm rfl rfl rfl
  | TX_FRAME => exact decodeNone_decodesAsRow (i := .txFrame) imm rfl rfl rfl
  | TX_POP => exact decodeNone_decodesAsRow (i := .txPop) imm rfl rfl rfl
  | SEQ_SET => exact ok_decodesAsRow (i := .seqSet imm) rfl rfl rfl
  | TX_PUT => exact ok_decodesAsRow (i := .txPut imm) rfl rfl rfl
  | RX_PUSH => exact ok_decodesAsRow (i := .rxPush imm) rfl rfl rfl
  | RX_ARM => exact decodeMode_decodesAsRow imm
  | RX_GET => exact decodeIndex_decodesAsRow imm
  | RD => exact decodeSelector_decodesAsRow imm

/-- A word with a mnemonic's opcode is that command, with IMM8 as its operand bits, when RSV is 0 and the
row's zero bits are 0; otherwise it is illegal. -/
theorem decode_of_opField {m : Mnemonic} {w : CommandWord} (hop : opField w = m.opcode) :
    ∃ i e, i.mnemonic = m ∧ (immField w &&& m.operandClass.zeroBits = 0 → i.imm8 = immField w) ∧
      decode w =
        if rsvField w = 0 ∧ immField w &&& m.operandClass.zeroBits = 0 then .ok i else .error e := by
  obtain ⟨i, e, hm, himm8, hrow⟩ := decodeRow_opcode m (immField w)
  by_cases hrsv : rsvField w = 0
  · refine ⟨i, e, hm, himm8, ?_⟩
    rw [decode_of_rsvField_eq_zero hrsv, hop, hrow]
    simp only [hrsv, true_and]
  · refine ⟨i, .reservedBits, hm, himm8, ?_⟩
    rw [decode_of_rsvField_ne_zero w hrsv, if_neg fun h => hrsv h.1]

theorem decode_of_unusedOpcode {w : CommandWord} (hop : UnusedOpcode (opField w)) :
    ∃ e, decode w = .error e := by
  by_cases hrsv : rsvField w = 0
  · refine ⟨.unusedOpcode, ?_⟩
    rw [decode_of_rsvField_eq_zero hrsv]
    rcases hop with h | h | h | h <;> rw [h] <;> rfl
  · exact ⟨_, decode_of_rsvField_ne_zero w hrsv⟩

/-- The fields of a word that meet a mnemonic's row (rule R73). -/
def MeetsRow (m : Mnemonic) (w : CommandWord) : Prop :=
  opField w = m.opcode ∧ rsvField w = 0 ∧ immField w &&& m.operandClass.zeroBits = 0

/-- A legal word meets the row of its command, and IMM8 is its command's operand bits. -/
theorem meetsRow_of_decode {w : CommandWord} {i : Instr} (h : decode w = .ok i) :
    MeetsRow i.mnemonic w ∧ i.imm8 = immField w := by
  rcases opcode_or_unused (opField w) with ⟨m, hop⟩ | hop
  · obtain ⟨j, e, rfl, himm8, hd⟩ := decode_of_opField hop.symm
    rw [h] at hd
    split at hd
    · rename_i hz
      cases hd
      exact ⟨⟨hop.symm, hz⟩, himm8 hz.2⟩
    · cases hd
  · obtain ⟨e, he⟩ := decode_of_unusedOpcode hop
    rw [h] at he
    cases he

theorem decode_of_meetsRow {m : Mnemonic} {w : CommandWord} (h : MeetsRow m w) :
    ∃ i, decode w = .ok i ∧ i.mnemonic = m := by
  obtain ⟨hop, hz⟩ := h
  obtain ⟨i, e, hm, -, hd⟩ := decode_of_opField hop
  exact ⟨i, hd.trans (if_pos hz), hm⟩

/-- A word is a mnemonic's command exactly when it meets the mnemonic's row. -/
theorem decode_mnemonic_iff {m : Mnemonic} {w : CommandWord} :
    (∃ i, decode w = .ok i ∧ i.mnemonic = m) ↔ MeetsRow m w :=
  ⟨fun ⟨_, h, hm⟩ => hm ▸ (meetsRow_of_decode h).1, decode_of_meetsRow⟩

theorem append_eq_append_iff {v n : Nat} {x x' : BitVec v} {y y' : BitVec n} :
    x ++ y = x' ++ y' ↔ x = x' ∧ y = y' := by
  refine ⟨fun h => ⟨?_, ?_⟩, fun ⟨hx, hy⟩ => by rw [hx, hy]⟩
  · simpa only [BitVec.extractLsb'_append_eq_left] using congrArg (BitVec.extractLsb' n v) h
  · simpa only [BitVec.extractLsb'_append_eq_right] using congrArg (BitVec.extractLsb' 0 n) h

/-- Masking a word of two bytes tests its high byte and the zero bits of its low byte. -/
theorem bytes_and_maskWord_iff (m : Mnemonic) (hi lo : Byte) :
    (hi ++ lo : BitVec 16) &&& m.maskWord = m.matchWord ↔
      hi = m.opcode ++ 0#4 ∧ lo &&& m.operandClass.zeroBits = 0 := by
  have hall : hi &&& 0xFF#8 = hi := BitVec.and_allOnes
  rw [maskWord_eq, matchWord_eq]
  exact (Eq.congr_left BitVec.and_append).trans (append_eq_append_iff.trans (by rw [hall]; rfl))

/-- The masked comparison of rule R73 says what its row wants of the fields. -/
theorem and_maskWord_iff (m : Mnemonic) (w : CommandWord) :
    w &&& m.maskWord = m.matchWord ↔ MeetsRow m w := by
  conv_lhs => rw [word_split w]
  exact (bytes_and_maskWord_iff m _ _).trans (by rw [append_eq_append_iff, and_assoc]; rfl)

/-- Settles O3: a masked comparison is the decoder's row, and a word has one command. -/
theorem opcodeMapSelectsTheCommand : Obligations.OpcodeMapSelectsTheCommand := by
  unfold Obligations.OpcodeMapSelectsTheCommand
  refine ⟨fun m => ⟨_, _, _, mem_opcodeMap_iff.2 ⟨rfl, rfl, rfl⟩⟩, fun m mt mk c hrow => ?_,
    fun w i h => (meetsRow_of_decode h).2, fun m mt mk c m' mt' mk' c' hrow hrow' hne w => ?_,
    fun w h => decode_of_unusedOpcode ?_⟩
  · obtain ⟨rfl, rfl, rfl⟩ := mem_opcodeMap_iff.1 hrow
    exact ⟨rfl, fun w => (and_maskWord_iff m w).trans decode_mnemonic_iff.symm⟩
  · obtain ⟨rfl, rfl, rfl⟩ := mem_opcodeMap_iff.1 hrow
    obtain ⟨rfl, rfl, rfl⟩ := mem_opcodeMap_iff.1 hrow'
    rintro ⟨h, h'⟩
    obtain ⟨i, hd, rfl⟩ := decode_of_meetsRow ((and_maskWord_iff m w).1 h)
    obtain ⟨i', hd', rfl⟩ := decode_of_meetsRow ((and_maskWord_iff m' w).1 h')
    cases hd.symm.trans hd'
    exact hne rfl
  · have hop : ∀ op : BitVec 4, op &&& 0xC = 0xC → op = 0xC ∨ op = 0xD ∨ op = 0xE ∨ op = 0xF := by
      decide
    have hmasked := congrArg opField h
    rw [opField, BitVec.extractLsb'_and] at hmasked
    exact hop _ hmasked

end Sys2Proof
end

section
/-! Illegal words (rule R80): an unused opcode, RSV bits set, or IMM8 bits set that the row wants 0. -/

namespace Sys2Proof

/-- Clauses (c) to (f) of rule R80: IMM8 has a bit set that no operand of the command has. -/
def StrayOperandBits (w : CommandWord) : Prop :=
  ((opField w = 0x0 ∨ opField w = 0x1 ∨ opField w = 0x3 ∨ opField w = 0x4 ∨ opField w = 0x6 ∨
    opField w = 0x7) ∧ immField w ≠ 0) ∨
  (opField w = 0x8 ∧ w.extractLsb' 1 7 ≠ 0) ∨
  (opField w = 0xA ∧ w.getLsbD 7 = true) ∨
  (opField w = 0xB ∧ w.extractLsb' 4 4 ≠ 0)

theorem extractLsb'_immField (w : CommandWord) {start len : Nat} (h : start + len ≤ 8) :
    (immField w).extractLsb' start len = w.extractLsb' start len := by
  rw [immField, BitVec.extractLsb'_extractLsb'_of_le h]

theorem getLsbD_immField (w : CommandWord) {k : Nat} (h : k < 8) :
    (immField w).getLsbD k = w.getLsbD k := by
  rw [immField, BitVec.getLsbD_extractLsb', Nat.zero_add, decide_eq_true h, Bool.true_and]

/-- The zero bits of a row are what clauses (c) to (f) name. -/
theorem strayOperandBits_iff {m : Mnemonic} {w : CommandWord} (hop : opField w = m.opcode) :
    StrayOperandBits w ↔ immField w &&& m.operandClass.zeroBits ≠ 0 := by
  unfold StrayOperandBits
  rw [hop]
  cases m with
  | NOP | RST | SEQ_INC | TX_CLR | TX_FRAME | TX_POP =>
    simp [Mnemonic.opcode, Mnemonic.operandClass, and_zeroBits_none]
  | SEQ_SET | TX_PUT | RX_PUSH =>
    simp [Mnemonic.opcode, Mnemonic.operandClass, OperandClass.zeroBits]
  | RX_ARM =>
    have hbits := and_zeroBits_mode (immField w)
    rw [extractLsb'_immField w (by decide)] at hbits
    simpa [Mnemonic.opcode, Mnemonic.operandClass] using hbits.not.symm
  | RX_GET =>
    have hbits := and_zeroBits_index (immField w)
    rw [getLsbD_immField w (by decide), ← Bool.not_eq_true] at hbits
    simpa [Mnemonic.opcode, Mnemonic.operandClass] using (not_iff_comm.1 hbits.symm).symm
  | RD =>
    have hbits := and_zeroBits_selector (immField w)
    rw [extractLsb'_immField w (by decide)] at hbits
    simpa [Mnemonic.opcode, Mnemonic.operandClass] using hbits.not.symm

theorem not_unusedOpcode_opcode (m : Mnemonic) : ¬UnusedOpcode m.opcode := by
  unfold UnusedOpcode
  cases m <;> decide

/-- A word with a mnemonic's opcode is illegal exactly when RSV or a zero bit of the row is set. -/
theorem decode_error_iff_of_opField {m : Mnemonic} {w : CommandWord} (hop : opField w = m.opcode) :
    (∃ e, decode w = .error e) ↔ rsvField w ≠ 0 ∨ immField w &&& m.operandClass.zeroBits ≠ 0 := by
  obtain ⟨i, e, -, -, hd⟩ := decode_of_opField hop
  rw [hd, ← not_and_or]
  split
  next hz => simp [hz]
  next hz => exact iff_of_true ⟨e, rfl⟩ hz

/-- The illegal words are those of rule R80's clauses. -/
theorem decode_error_iff (w : CommandWord) :
    (∃ e, decode w = .error e) ↔
      UnusedOpcode (opField w) ∨ rsvField w ≠ 0 ∨ StrayOperandBits w := by
  rcases opcode_or_unused (opField w) with ⟨m, hop⟩ | hop
  · rw [decode_error_iff_of_opField hop.symm, strayOperandBits_iff hop.symm, ← hop]
    exact (or_iff_right (not_unusedOpcode_opcode m)).symm
  · exact iff_of_true (decode_of_unusedOpcode hop) (.inl hop)

namespace Machine

theorem command_of_error {w : CommandWord} {e : IllegalWord} (h : decode w = .error e) (s : State) :
    command w s = .next (setErr .illegal s) := by
  unfold command
  rw [h]
  rfl

/-- Settles O4: the clauses are what the rows leave illegal, and an illegal word raises ILLEGAL. -/
theorem illegalWordsRaiseIllegal : Obligations.IllegalWordsRaiseIllegal := by
  unfold Obligations.IllegalWordsRaiseIllegal
  exact fun w => ⟨decode_error_iff w, fun s ⟨_, h⟩ => command_of_error h s⟩

end Machine
end Sys2Proof
end

section
/-! Counting words (rule R76): a count over the words of a property of the two bytes, and how the counts of
disjoint properties add up. -/

namespace Sys2Proof

/-- Counts split along a second property. -/
theorem countWords_split (p q : CommandWord → Bool) :
    countWords p = countWords (fun w => p w && q w) + countWords (fun w => p w && !q w) := by
  unfold countWords
  rw [← List.sum_map_add]
  refine congrArg List.sum (List.map_congr_left fun hi _ => ?_)
  rw [List.countP_eq_countP_filter_add _ _ fun lo => q (BitVec.ofNat 8 hi ++ BitVec.ofNat 8 lo),
    List.countP_filter, List.countP_filter]

theorem countWords_not (p : CommandWord → Bool) :
    countWords (fun w => !p w) = 65536 - countWords p := by
  have htotal : countWords (fun _ => true) = 65536 := by
    simp only [countWords, List.countP_true, List.length_range, List.map_const', List.sum_replicate,
      smul_eq_mul]
  rw [← htotal, countWords_split (fun _ => true) p]
  exact (Nat.add_sub_cancel_left _ _).symm

/-- The words a function takes into a list, counted value by value. -/
theorem countWords_mem {α : Type} [DecidableEq α] (f : CommandWord → α) {as : List α} (has : as.Nodup)
    {p : CommandWord → Bool} (hp : ∀ w, p w = true ↔ f w ∈ as) :
    countWords p = (as.map fun a => countWords fun w => decide (f w = a)).sum := by
  induction as generalizing p with
  | nil =>
    have hfalse : p = fun _ => false := funext fun w => by simpa using hp w
    simp only [hfalse, countWords, List.countP_false, Function.const_apply, List.map_const',
      List.sum_replicate, List.map_nil, List.sum_nil, smul_zero]
  | cons a as ih =>
    obtain ⟨ha, has⟩ := List.nodup_cons.1 has
    have hhead : ∀ w, (p w && decide (f w = a)) = decide (f w = a) := by
      intro w
      by_cases hw : f w = a <;> simp [hw, hp]
    have htail : ∀ w, (p w && !decide (f w = a)) = true ↔ f w ∈ as := by
      intro w
      by_cases hw : f w = a <;> simp [hw, hp, ha]
    rw [countWords_split p fun w => decide (f w = a), ih has htail, List.map_cons, List.sum_cons]
    simp only [hhead]

/-- The words with one high byte, counted by their low byte. -/
theorem countWords_of_high (high : Byte) (q : Byte → Bool) {p : CommandWord → Bool}
    (h : ∀ hi lo : Byte, p (hi ++ lo) = (decide (hi = high) && q lo)) :
    countWords p = (List.range 256).countP fun lo => q (BitVec.ofNat 8 lo) := by
  have hother : ∀ hi, hi ≠ high.toNat → hi ∈ List.range 256 →
      (List.range 256).countP (fun lo => p (BitVec.ofNat 8 hi ++ BitVec.ofNat 8 lo)) = 0 := by
    intro hi hne hmem
    have hhi : BitVec.ofNat 8 hi ≠ high := by
      rintro rfl
      exact hne (Nat.mod_eq_of_lt (List.mem_range.1 hmem)).symm
    simp only [h, hhi, decide_false, Bool.false_and, List.countP_false, Function.const_apply]
  unfold countWords
  rw [List.sum_map_eq_nsmul_single high.toNat _ hother,
    List.count_eq_one_of_mem List.nodup_range (List.mem_range.2 high.isLt), one_smul]
  simp only [h, BitVec.ofNat_toNat, BitVec.setWidth_eq, decide_true, Bool.true_and]

theorem mnemonicOf_eq_some_iff {m : Mnemonic} {w : CommandWord} :
    mnemonicOf w = some m ↔ ∃ i, decode w = .ok i ∧ i.mnemonic = m := by
  unfold mnemonicOf
  cases decode w <;> simp [Except.toOption]

/-- How many values of IMM8 are legal for a class: one for each operand value, and 0x00 alone for the
class `none` (rule R72). -/
def OperandClass.immCount (c : OperandClass) : Nat := max 1 c.bound

theorem OperandClass.immCount_le (c : OperandClass) : c.immCount ≤ 256 := by
  cases c <;> decide

/-- The legal values of IMM8 are an initial segment. -/
theorem and_zeroBits_eq_zero_iff (c : OperandClass) (imm : Byte) :
    imm &&& c.zeroBits = 0 ↔ imm.toNat < c.immCount := by
  revert imm
  cases c <;> decide

theorem countP_range_lt {k n : Nat} (h : k ≤ n) :
    (List.range n).countP (fun i => decide (i < k)) = k := by
  obtain ⟨d, rfl⟩ := Nat.exists_eq_add_of_le h
  rw [List.range_add, List.countP_append, List.countP_eq_length.2, List.countP_eq_zero.2] <;> simp

/-- The words of a mnemonic number the legal values of its IMM8. -/
theorem countWords_mnemonic (m : Mnemonic) :
    countWords (fun w => decide (mnemonicOf w = some m)) = m.operandClass.immCount := by
  have hlow : ∀ hi lo : Byte, decide (mnemonicOf (hi ++ lo) = some m) =
      (decide (hi = m.opcode ++ 0#4) && decide (lo.toNat < m.operandClass.immCount)) := by
    intro hi lo
    rw [← Bool.decide_and, decide_eq_decide, mnemonicOf_eq_some_iff, decode_mnemonic_iff,
      ← and_maskWord_iff, bytes_and_maskWord_iff, and_zeroBits_eq_zero_iff]
  rw [countWords_of_high _ (fun lo => decide (lo.toNat < m.operandClass.immCount)) hlow]
  refine (List.countP_congr fun lo hlo => ?_).trans (countP_range_lt m.operandClass.immCount_le)
  rw [BitVec.toNat_ofNat, Nat.mod_eq_of_lt (List.mem_range.1 hlo)]

theorem countWords_isSome : countWords (fun w => (mnemonicOf w).isSome) = 920 := by
  have hmem : ∀ w, (mnemonicOf w).isSome = true ↔ mnemonicOf w ∈ mnemonics.map some := by
    intro w
    cases mnemonicOf w <;> simp [mem_mnemonics]
  rw [countWords_mem mnemonicOf (by decide) hmem, List.map_map]
  simp only [Function.comp_def, countWords_mnemonic]
  rfl

theorem countWords_isNone : countWords (fun w => (mnemonicOf w).isNone) = 64616 := by
  simp only [← Option.not_isSome]
  rw [countWords_not, countWords_isSome]

/-- Settles O5: the words of a mnemonic number its legal operands, and the mnemonics' words add up. -/
theorem legalWordsNumber920 : Obligations.LegalWordsNumber920 := by
  unfold Obligations.LegalWordsNumber920
  refine ⟨countWords_isSome, countWords_isNone, ?_, countWords_mnemonic _, countWords_mnemonic _,
    countWords_mnemonic _, ?_⟩
  · rintro m (rfl | rfl | rfl) <;> exact countWords_mnemonic _
  · rintro m (rfl | rfl | rfl | rfl | rfl | rfl) <;> exact countWords_mnemonic _

end Sys2Proof
end

section
/-! Pseudo-commands (rule R83): the words of lists of source lines. -/

namespace Sys2Proof.Machine

theorem assembleLines_map {α : Type} {line : α → SourceLine} {word : α → CommandWord}
    (h : ∀ a, assembleLine (line a) = some (word a)) (as : List α) :
    assembleLines (as.map line) = some (as.map word) := by
  induction as with
  | nil => rfl
  | cons a as ih => simp only [List.map_cons, assembleLines, h, ih]

theorem assembleLines_cons {l : SourceLine} {ls : List SourceLine} {w : CommandWord}
    {ws : List CommandWord} (hl : assembleLine l = some w) (hls : assembleLines ls = some ws) :
    assembleLines (l :: ls) = some (w :: ws) := by
  simp only [assembleLines, hl, hls]

theorem assembleLines_replicate {l : SourceLine} {w : CommandWord} (h : assembleLine l = some w)
    (n : Nat) : assembleLines (List.replicate n l) = some (List.replicate n w) := by
  simpa using assembleLines_map (line := fun _ => l) (fun _ => h) (List.replicate n ())

theorem assemblePseudo_of_wf {p : Pseudo} (h : p.wf = true) :
    assemblePseudo p = assembleLines (expandPseudo p) :=
  if_pos h

theorem allBytes_map_toNat (bs : List Byte) : allBytes (bs.map BitVec.toNat) = true := by
  rw [allBytes, List.all_map, List.all_eq_true]
  exact fun b _ => decide_eq_true b.isLt

/-- A line with a byte operand is the row's high byte and the operand (rules R73, R82). -/
theorem assembleLine_byte {m : Mnemonic} (hm : m.operandClass = .byte) (b : Byte) :
    assembleLine ⟨m, some b.toNat⟩ = some ((m.opcode ++ 0#4 : Byte) ++ b) := by
  have hwf : (SourceLine.mk m (some b.toNat)).wf = true := by
    rw [SourceLine.wf, hm]
    exact decide_eq_true b.isLt
  have hword : BitVec.ofNat 16 b.toNat = 0#8 ++ b := by
    rw [BitVec.ofNat_toNat]
    exact BitVec.setWidth_eq_append (by decide)
  refine (if_pos hwf).trans (congrArg some ?_)
  rw [matchWord_eq, Option.getD_some, hword, BitVec.or_append, BitVec.or_zero, BitVec.zero_or]

/-- Settles O8: every line of an expansion gets its word, whatever the length of the byte list. -/
theorem pseudoCommandsExpand : Obligations.PseudoCommandsExpand := by
  unfold Obligations.PseudoCommandsExpand
  have hput : ∀ b : Byte, assembleLine ⟨.TX_PUT, some b.toNat⟩ = some (txPutWord b) :=
    assembleLine_byte rfl
  have hpush : ∀ b : Byte, assembleLine ⟨.RX_PUSH, some b.toNat⟩ = some (rxPushWord b) :=
    assembleLine_byte rfl
  refine ⟨fun bs hmin hmax => ?_, ?_, fun bs hmin => ?_, fun bs hlen => ?_, rfl, rfl, rfl⟩
  · rw [assemblePseudo_of_wf (by simp [Pseudo.wf, allBytes_map_toNat, hmin, hmax]), expandPseudo,
      List.map_map]
    exact assembleLines_cons rfl (assembleLines_map hput bs)
  · rw [assemblePseudo_of_wf rfl, expandPseudo]
    exact assembleLines_replicate (l := ⟨.TX_POP, none⟩) (w := 0x7000) (by decide) 132
  · rw [assemblePseudo_of_wf (by simp [Pseudo.wf, allBytes_map_toNat, hmin]), expandPseudo,
      List.map_map]
    exact assembleLines_map hpush bs
  · rw [assemblePseudo_of_wf (by simp [Pseudo.wf, allBytes_map_toNat, hlen]), expandPseudo,
      List.map_map]
    exact assembleLines_cons rfl (assembleLines_map hpush bs)

end Sys2Proof.Machine
end

section
/-! The words of a command: the words a decoded command came from, and the words of the classes `none` and
`byte` (rules R72, R73). -/

namespace Sys2Proof

/-- A legal word is its command's opcode, RSV = 0 and its command's operand bits (rules R70, R73). -/
theorem word_of_decode {w : CommandWord} {i : Instr} {m : Mnemonic} (h : decode w = .ok i)
    (hm : i.mnemonic = m) : w = (m.opcode ++ 0#4 : Byte) ++ i.imm8 := by
  obtain ⟨⟨hop, hrsv, -⟩, himm⟩ := meetsRow_of_decode h
  calc w = (opField w ++ rsvField w) ++ immField w := word_split w
    _ = (m.opcode ++ 0#4 : Byte) ++ i.imm8 := by rw [hop, hrsv, himm, hm]; rfl

/-- An opcode of class `none` is legal with IMM8 = 0x00 alone. -/
theorem wordsOf_none {op : BitVec 4} {i : Instr} (hrow : ∀ imm, decodeRow op imm = decodeNone imm i) :
    WordsOf op (· = 0x00) (fun _ => i) :=
  wordsOf_of_decodeRow (fun imm hl => (hrow imm).trans (if_pos hl))
    (fun imm hn => ⟨.strayOperand, (hrow imm).trans (if_neg hn)⟩)

/-- An opcode of class `byte` is legal with every IMM8. -/
theorem wordsOf_byte {op : BitVec 4} {mk : Byte → Instr} (hrow : ∀ imm, decodeRow op imm = .ok (mk imm)) :
    WordsOf op (fun _ => True) mk :=
  wordsOf_of_decodeRow (fun imm _ => hrow imm) (fun _ hn => absurd trivial hn)

end Sys2Proof
end

section
/-! The sequence register (rules R90 to R93): which commands write SEQ, and what a run of SEQ_INCs makes of
it. -/

namespace Sys2Proof.Machine

/-- The "written by" column of rule R20 for SEQ. -/
theorem exec_keeps_seq {i : Instr} {s t : State}
    (hi : i.mnemonic ∉ [Mnemonic.SEQ_SET, .SEQ_INC, .RST]) (h : exec i s = .next t) :
    t.seq = s.seq := by
  cases i with
  | rst | seqSet b | seqInc => simp [Instr.mnemonic] at hi
  | nop | txClr | txFrame | rxArm m | rxGet k | rd v =>
    cases h
    rfl
  | txPut b => rcases execTxPut_next h with ⟨-, rfl⟩ | ⟨-, -, rfl⟩ | ⟨-, -, -, rfl⟩ <;> rfl
  | txPop => rcases execTxPop_next h with ⟨-, rfl⟩ | ⟨-, -, rfl⟩ <;> rfl
  | rxPush b =>
    rcases execRxPush_next h with ⟨-, rfl⟩ | ⟨-, -, rfl⟩
    · rfl
    · exact rxStage_seq _ b _

/-- Settles O38: a word is an illegal one, one of the three writers' words, or a command that keeps SEQ. -/
theorem onlySeqSetSeqIncRstWriteSeq : Obligations.OnlySeqSetSeqIncRstWriteSeq := by
  unfold Obligations.OnlySeqSetSeqIncRstWriteSeq
  intro w s t h hset hinc hrst
  rcases command_next h with ⟨i, hd, hexec⟩ | ⟨e, -, rfl⟩
  · refine exec_keeps_seq ?_ hexec
    cases i with
    | seqSet b => exact (hset b (word_of_decode (m := .SEQ_SET) hd rfl)).elim
    | seqInc => exact (hinc (word_of_decode (m := .SEQ_INC) hd rfl)).elim
    | rst => exact (hrst (word_of_decode (m := .RST) hd rfl)).elim
    | _ => simp [Instr.mnemonic]
  · exact setErr_seq _ s

theorem command_seqInc (s : State) : command 0x3000 s = .next { s with seq := s.seq + 1 } :=
  command_of_ok (i := .seqInc) (by decide) s

/-- k SEQ_INCs add k to SEQ modulo 256, change nothing else and leave RESP as it was (rules R38, R91). -/
theorem run_seqIncs (k : Nat) (s : State) :
    run (List.replicate k 0x3000) s =
      .next ({ s with seq := s.seq + BitVec.ofNat 8 k }, List.replicate k s.resp) := by
  induction k generalizing s with
  | zero => simp [run]
  | succ k ih =>
    have hsum : s.seq + BitVec.ofNat 8 (k + 1) = s.seq + 1 + BitVec.ofNat 8 k := by
      rw [Nat.add_comm, BitVec.ofNat_add, BitVec.add_assoc]
      rfl
    rw [List.replicate_succ, run_cons_of_next (command_seqInc s) (ih _), hsum]
    rfl

theorem toNat_add_ofNat (x : Byte) (k : Nat) : (x + BitVec.ofNat 8 k).toNat = (x.toNat + k) % 256 := by
  simp

/-- The complement never underflows (rule R93 (d)). -/
theorem complement_toNat (x : Byte) : (complement x).toNat = 255 - x.toNat := by
  unfold complement
  bv_omega

/-- Settles O50: a run of SEQ_INCs adds its length, also to the reset value 1, and the complement is taken
from 255. -/
theorem sequenceArithmeticLaws : Obligations.SequenceArithmeticLaws := by
  unfold Obligations.SequenceArithmeticLaws
  refine ⟨fun k s => ⟨_, _, run_seqIncs k s, toNat_add_ofNat s.seq k⟩,
    fun n hn => ⟨_, _, run_seqIncs (n - 1) State.reset, ?_⟩,
    fun s => ⟨Nat.le_of_lt_succ s.seq.isLt, complement_toNat s.seq⟩⟩
  calc (State.reset.seq + BitVec.ofNat 8 (n - 1)).toNat
      = (1 + (n - 1)) % 256 := toNat_add_ofNat State.reset.seq (n - 1)
    _ = n % 256 := by rw [Nat.add_sub_cancel' hn]

/-- Settles O13: SEQ_SET's row takes every byte, and its effect is the one field. -/
theorem seqSetLoadsSeq : Obligations.SeqSetLoadsSeq :=
  ⟨wordsOf_byte fun _ => rfl, fun _ _ => rfl⟩

theorem exec_seqInc (s : State) :
    exec .seqInc s = .next { s with seq := BitVec.ofNat 8 ((s.seq.toNat + 1) % 256) } := by
  have hsucc : s.seq + 1 = BitVec.ofNat 8 ((s.seq.toNat + 1) % 256) :=
    BitVec.eq_of_toNat_eq (by simp)
  rw [← hsucc]
  rfl

/-- Settles O14: SEQ_INC's row takes IMM8 = 0x00 alone, and the sum after 0xFF is 256, which is 0. -/
theorem seqIncWrapsThroughZero : Obligations.SeqIncWrapsThroughZero := by
  unfold Obligations.SeqIncWrapsThroughZero
  refine ⟨wordsOf_none fun _ => rfl, exec_seqInc, fun s hs => ?_⟩
  rw [exec_seqInc, hs]
  rfl

end Sys2Proof.Machine
end

section
/-! The checksum of rules R100 and R106 as a sum over the buffer, of numbers modulo 256 and of bytes. -/

namespace Sys2Proof.Machine

theorem toList_eq_ofFn (buf : Buffer) : buf.toList = List.ofFn fun i : Fin 128 => buf[i] := by
  rw [← Vector.toList_ofFn]
  exact congrArg Vector.toList Vector.ofFn_getElem.symm

/-- Only the sum modulo 256 matters (rule R10). -/
theorem sumBytes_eq_ofNat_mod (bs : List Byte) :
    sumBytes bs = BitVec.ofNat 8 ((bs.map BitVec.toNat).sum % 256) :=
  BitVec.eq_of_toNat_eq (by simp [sumBytes])

theorem checksum_eq_payloadSum (buf : Buffer) : checksum buf = payloadSum buf := by
  rw [checksum, sumBytes_eq_ofNat_mod, toList_eq_ofFn, List.map_ofFn, List.sum_ofFn]
  rfl

theorem checksum_toNat (buf : Buffer) :
    (checksum buf).toNat = (∑ i : Fin 128, (buf[i]).toNat) % 256 := by
  rw [checksum_eq_payloadSum, payloadSum, BitVec.toNat_ofNat, Nat.mod_mod]

/-- Narrowing after the sum is summing bytes with wrapping addition (rule R10). -/
theorem sumBytes_eq_sum (bs : List Byte) : sumBytes bs = bs.sum := by
  induction bs with
  | nil => rfl
  | cons b bs ih => rw [sumBytes_cons, List.sum_cons, ih]

theorem checksum_eq_sum (buf : Buffer) : checksum buf = ∑ i : Fin 128, buf[i] := by
  rw [checksum, sumBytes_eq_sum, toList_eq_ofFn, List.sum_ofFn]

/-- Checksums differ by the sum of the differences of the bytes (rule R106). -/
theorem checksum_sub_checksum (buf buf' : Buffer) :
    checksum buf' - checksum buf = ∑ i : Fin 128, (buf'[i] - buf[i]) := by
  rw [checksum_eq_sum, checksum_eq_sum, Finset.sum_sub_distrib]

/-- A change of one byte changes the checksum by the difference (rule R106). -/
theorem checksum_bufWrite (buf : Buffer) (i : Fin 128) (y : Byte) :
    checksum (bufWrite buf i y) = checksum buf + (y - bufRead buf i) := by
  have hother : ∀ j : Fin 128, j ≠ i → bufRead (bufWrite buf i y) j - bufRead buf j = 0 :=
    fun j hj => by rw [bufRead_bufWrite_other buf y hj, sub_self]
  rw [← sub_eq_iff_eq_add', checksum_sub_checksum]
  calc ∑ j : Fin 128, (bufRead (bufWrite buf i y) j - bufRead buf j)
      = bufRead (bufWrite buf i y) i - bufRead buf i := Fintype.sum_eq_single i hother
    _ = y - bufRead buf i := by rw [bufRead_bufWrite_same]

theorem checksum_of_perm {buf buf' : Buffer} (h : buf.toList.Perm buf'.toList) :
    checksum buf = checksum buf' := by
  rw [checksum, checksum, sumBytes_eq_sum, sumBytes_eq_sum, h.sum_eq]

/-- TX_FRAME in every state (rules R104, R105). -/
theorem exec_txFrame (s : State) : exec .txFrame s =
    .next { s with txseq := s.seq, txsum := checksum s.txbuf, txpos := 0x00, txact := true } :=
  rfl

theorem txsum_of_exec_txFrame {s t : State} (h : exec .txFrame s = .next t) :
    t.txsum = checksum s.txbuf := by
  rw [exec_txFrame] at h
  cases h
  rfl

/-- Settles O51: TX_FRAME latches the checksum of the buffer alone, and the laws are those of the sum of
its bytes. -/
theorem checksumLaws : Obligations.ChecksumLaws := by
  unfold Obligations.ChecksumLaws
  refine ⟨fun s t h => ?_, fun s s' t t' hbuf h h' => ?_, fun s t t' i y hy h h' => ?_,
    fun s s' t t' h h' hsum => ?_, fun s s' t t' hperm h h' => ?_⟩
  · rw [txsum_of_exec_txFrame h, checksum_toNat]
  · rw [txsum_of_exec_txFrame h, txsum_of_exec_txFrame h', hbuf]
  · have hdiff : t'.txsum = t.txsum + (y - s.txbuf[i]) := by
      rw [txsum_of_exec_txFrame h, txsum_of_exec_txFrame h']
      exact checksum_bufWrite s.txbuf i y
    refine ⟨hdiff, fun heq => hy (sub_eq_zero.1 ?_)⟩
    rwa [hdiff, add_eq_left] at heq
  · rw [txsum_of_exec_txFrame h, txsum_of_exec_txFrame h']
    exact (sub_eq_zero.1 ((checksum_sub_checksum s.txbuf s'.txbuf).trans hsum)).symm
  · rw [txsum_of_exec_txFrame h, txsum_of_exec_txFrame h', checksum_of_perm hperm]

end Sys2Proof.Machine
end

section
/-! The framer's commands one by one (rules R101 to R108). -/

namespace Sys2Proof.Machine

/-- Settles O15: TX_CLR's row takes IMM8 = 0x00 alone, and its TXCNT of 0 is not 128. -/
theorem txClrZeroesTheFramer : Obligations.TxClrZeroesTheFramer := by
  unfold Obligations.TxClrZeroesTheFramer
  refine ⟨wordsOf_none fun _ => rfl, fun s => ⟨_, rfl, rfl, fun v ⟨_, hfull, _⟩ => ?_⟩⟩
  rw [← Bool.not_eq_true, hfull]
  exact (by decide : (0x00 : Byte).toNat ≠ 128)

theorem exec_txPut_busy (b : Byte) {s : State} (ha : s.txact = true) :
    exec (.txPut b) s = .next (setErr .txBusy s) :=
  if_pos ha

theorem exec_txPut_full (b : Byte) {s : State} (ha : s.txact = false) (hc : s.txcnt.toNat = 128) :
    exec (.txPut b) s = .next (setErr .txFull s) := by
  have hc' : s.txcnt = 128 := BitVec.eq_of_toNat_eq hc
  show execTxPut b s = _
  rw [execTxPut, if_neg (by simp [ha]), if_pos hc']
  rfl

theorem exec_txPut_append (b : Byte) {s : State} (ha : s.txact = false) (hl : s.txcnt.toNat < 128) :
    exec (.txPut b) s = .next
      { s with txbuf := bufWrite s.txbuf ⟨s.txcnt.toNat, hl⟩ b, txcnt := s.txcnt + 1 } := by
  have hc : s.txcnt ≠ 128 := fun e => by simp [e] at hl
  show execTxPut b s = _
  rw [execTxPut, if_neg (by simp [ha]), if_neg hc, dif_pos hl]

/-- Settles O16: the three cases of TX_PUT; TXFULL follows the byte that fills the buffer. -/
theorem txPutAppendsOrRefuses : Obligations.TxPutAppendsOrRefuses := by
  unfold Obligations.TxPutAppendsOrRefuses
  refine ⟨wordsOf_byte fun _ => rfl, fun b s ha => exec_txPut_busy b ha,
    fun b s ha hc => exec_txPut_full b ha hc, fun b s hl ha => ?_⟩
  refine ⟨_, exec_txPut_append b ha hl, by rw [succ_eq_ofNat]; rfl, fun v ⟨_, hfull, _⟩ => ?_⟩
  rw [hfull, toNat_succ_of_lt (by omega)]
  omega

/-- Settles O17: TX_FRAME's row takes IMM8 = 0x00 alone, and the model's checksum is the sum of rule
R105. -/
theorem txFrameLatchesTheFrame : Obligations.TxFrameLatchesTheFrame := by
  unfold Obligations.TxFrameLatchesTheFrame
  refine ⟨wordsOf_none fun _ => rfl, fun s => ?_⟩
  rw [exec_txFrame, checksum_eq_payloadSum]

/-- The payload's positions in a frame (rule R107). -/
theorem frameAt_payload (seq : Byte) (p : Buffer) (sum : Byte) (i : Fin 128) :
    frameAt seq p sum (3 + i.val) = p[i] := by
  have hle : 3 + i.val ≤ 130 := by omega
  rw [frameAt, if_neg (by omega), if_neg (by omega), if_neg (by omega), if_pos hle,
    Nat.add_sub_cancel_left]
  simp

/-- Settles O18: F(k) position by position. -/
theorem frameBytesFollowTheLayout : Obligations.FrameBytesFollowTheLayout := by
  unfold Obligations.FrameBytesFollowTheLayout
  intro s k
  rw [frameByte_eq_frameAt]
  refine ⟨fun hk => ?_, fun hk => ?_, fun hk => ?_, fun i hk => ?_, fun hk => ?_⟩ <;> rw [hk]
  · rfl
  · rfl
  · rfl
  · exact frameAt_payload _ _ _ i
  · rfl

theorem exec_txPop_empty {s : State} (ha : s.txact = false) :
    exec .txPop s = .next (setErr .txEmpty (respond 0x00 s)) :=
  if_neg (by simp [ha])

/-- TX_POP with a frame in flight (rule R108). -/
theorem exec_txPop_emit {s : State} (ha : s.txact = true) (hl : s.txpos.toNat < 132) :
    exec .txPop s = .next { s with
      resp := frameAt s.txseq s.txbuf s.txsum s.txpos.toNat
      txpos := BitVec.ofNat 8 (s.txpos.toNat + 1)
      txact := decide (s.txpos.toNat + 1 ≠ 132) } := by
  have hlast : (s.txpos + 1 ≠ 132) = (s.txpos.toNat + 1 ≠ 132) := by
    rw [ne_eq, ← BitVec.toNat_inj, toNat_succ_of_lt (by omega)]
    rfl
  show execTxPop s = _
  rw [execTxPop, if_pos ha, dif_pos hl, frameByte_eq_frameAt]
  simp only [hlast, ← succ_eq_ofNat]

/-- Settles O19: TX_POP's row takes IMM8 = 0x00 alone; the position after the byte is 132 for the last one
only. -/
theorem txPopEmitsTheNextByte : Obligations.TxPopEmitsTheNextByte := by
  unfold Obligations.TxPopEmitsTheNextByte
  refine ⟨wordsOf_none fun _ => rfl, fun s ha => exec_txPop_empty ha, fun s ha hp => ?_,
    fun s ha hp => ?_⟩
  · have hmore : decide (s.txpos.toNat + 1 ≠ 132) = s.txact := by
      rw [ha, decide_eq_true_iff]
      omega
    rw [exec_txPop_emit ha (by omega), hmore]
  · rw [exec_txPop_emit ha (by omega), hp]
    rfl

end Sys2Proof.Machine
end

section
/-! The framer emits the document's encode (rule R109): what a run of TX_PUTs makes of the buffer, and the
132 bytes of a frame as a list. -/

namespace Sys2Proof.Machine

theorem decode_txPutWord (b : Byte) : decode (txPutWord b) = .ok (.txPut b) :=
  decode_word 0x5 b

theorem decode_seqSetWord (b : Byte) : decode (seqSetWord b) = .ok (.seqSet b) :=
  decode_word 0x2 b

/-- A write extends the bytes in front of it by the byte written. -/
theorem take_succ_bufWrite (buf : Buffer) (i : Fin 128) (b : Byte) :
    (bufWrite buf i b).toList.take (i.val + 1) = buf.toList.take i.val ++ [b] := by
  rw [toList_bufWrite, List.take_succ_eq_append_getElem (by simp), List.take_set_of_le (Nat.le_refl _),
    List.getElem_set_self]

/-- A write leaves the bytes behind it. -/
theorem drop_bufWrite (buf : Buffer) {i : Fin 128} {n : Nat} (b : Byte) (h : i.val < n) :
    (bufWrite buf i b).toList.drop n = buf.toList.drop n := by
  rw [toList_bufWrite, List.drop_set_of_lt h]

/-- With room and no frame in flight, TX_PUTs write their bytes from TXBUF[TXCNT] upward, advance TXCNT by
their number, and change nothing else (rules R102, R103). -/
theorem run_txPuts {p : List Byte} {s : State} (ha : s.txact = false)
    (hroom : s.txcnt.toNat + p.length ≤ 128) :
    ∃ t, run (p.map txPutWord) s = .next (t, List.replicate p.length s.resp) ∧
      t = { s with txbuf := t.txbuf, txcnt := t.txcnt } ∧
      t.txcnt.toNat = s.txcnt.toNat + p.length ∧
      t.txbuf.toList = s.txbuf.toList.take s.txcnt.toNat ++ p ++
        s.txbuf.toList.drop (s.txcnt.toNat + p.length) := by
  induction p generalizing s with
  | nil => exact ⟨s, rfl, rfl, rfl, by simp⟩
  | cons b p ih =>
    rw [List.length_cons] at hroom
    have hl : s.txcnt.toNat < 128 := by omega
    have hcnt : (s.txcnt + 1).toNat = s.txcnt.toNat + 1 := toNat_succ_of_lt (by omega)
    have hput := (command_of_ok (decode_txPutWord b) s).trans (exec_txPut_append b ha hl)
    obtain ⟨t, hrun, ht, htcnt, hbuf⟩ := ih
      (s := { s with txbuf := bufWrite s.txbuf ⟨s.txcnt.toNat, hl⟩ b, txcnt := s.txcnt + 1 }) ha
      (by rw [hcnt]; omega)
    have hall := run_cons_of_next hput hrun
    refine ⟨t, hall, ht, ?_, ?_⟩
    · rw [htcnt, hcnt, List.length_cons]
      omega
    · have htake := take_succ_bufWrite s.txbuf ⟨s.txcnt.toNat, hl⟩ b
      rw [hbuf, hcnt, htake, drop_bufWrite _ _ (by simp only; omega), List.append_assoc _ [b],
        List.singleton_append, List.length_cons, Nat.add_assoc, Nat.add_comm 1]

/-- TX_CLR leaves the framer empty and with room, and RESP and ERR as they were (rule R101). -/
theorem command_txClr (s : State) :
    ∃ t, command 0x4000 s = .next t ∧ t.txbuf = zeroBuffer ∧ t.txcnt.toNat = 0 ∧ t.txact = false ∧
      t.resp = s.resp ∧ t.err = s.err :=
  ⟨_, command_of_ok (i := .txClr) (by decide) s, rfl, rfl, rfl, rfl, rfl⟩

/-- TX_CLR and a TX_PUT for each byte load the bytes padded with zeros, in every state (rules R101, R102,
R103). -/
theorem run_txClr_txPuts {p : List Byte} (s : State) (hp : p.length ≤ 128) :
    ∃ t, run (0x4000 :: p.map txPutWord) s = .next (t, List.replicate (p.length + 1) s.resp) ∧
      t.txbuf.toList = padded p ∧ t.txcnt.toNat = p.length ∧ t.err = s.err := by
  obtain ⟨u, hclr, hzero, hempty, hact, hresp, herr⟩ := command_txClr s
  obtain ⟨t, hrun, ht, hcnt, hbuf⟩ := run_txPuts (p := p) hact (by omega)
  have hreplicate : zeroBuffer.toList = List.replicate 128 0x00 := Vector.toList_replicate
  refine ⟨t, ?_, ?_, by omega, by rw [ht, herr]⟩
  · rw [run_cons_of_next hclr hrun, hresp, List.replicate_succ]
  · rw [hbuf, hzero, hempty, hreplicate, List.take_zero, List.nil_append, Nat.zero_add,
      List.drop_replicate, padded]

/-- The 132 bytes of a frame in order (rule R107). -/
theorem map_frameAt_range (seq : Byte) (p : Buffer) (sum : Byte) :
    (List.range 132).map (frameAt seq p sum) = [0x01, seq, 0xFF - seq] ++ p.toList ++ [sum] := by
  have hpayload : (List.range' 3 128).map (frameAt seq p sum) = p.toList :=
    List.ext_getElem (by simp) fun k hk _ => by
      simpa using frameAt_payload seq p sum ⟨k, by simpa using hk⟩
  have hsplit : List.range 132 = [0, 1, 2] ++ List.range' 3 128 ++ [131] := by decide
  rw [hsplit, List.map_append, List.map_append, hpayload]
  rfl

/-- The frame's bytes are the document's `encode` (rules R100, R109). -/
theorem map_frameAt_eq_encodeFrame (seq : Byte) (p : Buffer) :
    (List.range 132).map (frameAt seq p (checksum p)) = encodeFrame seq p.toList :=
  map_frameAt_range seq p (checksum p)

/-- SEQ_SET, TX_FRAME and 132 TX_POPs emit the encoded buffer, in every state (rules R90, R105, R108). -/
theorem run_seqSet_txFrame_txPops (seq : Byte) (s : State) :
    ∃ t, run ([seqSetWord seq, 0x6000] ++ List.replicate 132 0x7000) s =
        .next (t, [s.resp, s.resp] ++ encodeFrame seq s.txbuf.toList) ∧
      t.txcnt = s.txcnt ∧ t.txact = false ∧ t.err = s.err := by
  have hset : command (seqSetWord seq) s = .next { s with seq := seq } :=
    command_of_ok (decode_seqSetWord seq) s
  obtain ⟨t, hrun, ht, -, hact⟩ := run_txFrame_txPops { s with seq := seq } (Nat.le_refl 132)
  rw [map_frameAt_eq_encodeFrame] at hrun
  have hall := run_cons_of_next hset hrun
  refine ⟨t, hall, by rw [ht], ?_, by rw [ht]⟩
  rw [← Bool.not_eq_true, hact]
  decide

/-- Settles O53: the loading, then the emission of what it loaded. -/
theorem framerEmitsTheEncodedFrame : Obligations.FramerEmitsTheEncodedFrame := by
  unfold Obligations.FramerEmitsTheEncodedFrame
  intro p seq s hp
  obtain ⟨t, hload, hbuf, hcnt, herr⟩ := run_txClr_txPuts s hp
  obtain ⟨u, hemit, hucnt, huact, huerr⟩ := run_seqSet_txFrame_txPops seq t
  refine ⟨u, List.replicate (p.length + 1) s.resp ++ [t.resp, t.resp], ?_, by simp,
    by rw [hucnt, hcnt], huact, huerr.trans herr⟩
  rw [List.append_assoc _ [seqSetWord seq, 0x6000], List.singleton_append, run_append hload, hemit, hbuf,
    encodeFrame, sumBytes_eq_ofNat_mod, List.append_assoc _ [t.resp, t.resp]]
  rfl

end Sys2Proof.Machine
end

section
/-! The validator's commands one by one (rules R121 to R133): RX_ARM, RX_GET, and RX_PUSH at each position
of a frame. -/

namespace Sys2Proof.Machine

/-- RX_ARM's row: the modes 0 and 1 are legal (rules R72, R75). -/
theorem wordsOf_rxArm :
    WordsOf 0x8 (fun imm => imm.extractLsb' 1 7 = 0) (fun imm => .rxArm (imm.getLsbD 0)) :=
  wordsOf_of_decodeRow (fun _ hl => if_pos hl) (fun _ hn => ⟨.modeBits, if_neg hn⟩)

/-- RX_ARM in every state (rule R121). -/
theorem exec_rxArm (m : Bool) (s : State) : exec (.rxArm m) s = .next { s with
    rxact := true, rxdone := false, result := 0x00, rxpos := 0x00, rxsum := 0x00, rxhdr := 0x00,
    rxseq := 0x00, rxcmp := 0x00, rxck := 0x00, rxexp := s.seq, chkseq := m } :=
  rfl

/-- Settles O20: RX_ARM's row takes IMM8[7:1] = 0 alone, and its effect has no case. -/
theorem rxArmStartsAFrame : Obligations.RxArmStartsAFrame :=
  ⟨wordsOf_rxArm, exec_rxArm⟩

/-- RX_PUSH while ARMED is the stage of the position, which advances first (rule R124). -/
theorem exec_rxPush_armed (b : Byte) {s : State} {p : Nat} (ha : s.rxact = true)
    (hp : s.rxpos.toNat = p) (hl : p < 132) :
    exec (.rxPush b) s = .next (rxStage ⟨p, hl⟩ b { s with rxpos := BitVec.ofNat 8 (p + 1) }) := by
  subst hp
  show execRxPush b s = _
  rw [execRxPush, if_pos ha, dif_pos hl, succ_eq_ofNat]

/-- Settles O22: the header stage branch by branch. -/
theorem headerByteDecides : Obligations.HeaderByteDecides := by
  unfold Obligations.HeaderByteDecides
  intro b s ha hp
  rw [exec_rxPush_armed b ha hp (by decide)]
  refine ⟨fun hsoh => ?_, fun heot => ?_, fun hsoh heot => ?_⟩
  · exact congrArg _ (if_pos hsoh)
  · have hsoh : b ≠ Config.soh := by rw [heot]; decide
    exact congrArg _ ((if_neg hsoh).trans (if_pos heot))
  · exact congrArg _ ((if_neg hsoh).trans (if_neg heot))

/-- Settles O23: the sequence stage has no branch. -/
theorem sequenceByteIsStored : Obligations.SequenceByteIsStored := by
  unfold Obligations.SequenceByteIsStored
  intro b s ha hp
  exact exec_rxPush_armed b ha hp (by decide)

/-- Settles O24: the complement stage branch by branch. -/
theorem complementByteDecides : Obligations.ComplementByteDecides := by
  unfold Obligations.ComplementByteDecides
  intro b s ha hp
  rw [exec_rxPush_armed b ha hp (by decide)]
  refine ⟨fun hcmp => ?_, fun hcmp hchk hseq => ?_, fun hcmp hpass => ?_⟩
  · exact congrArg _ (if_pos hcmp)
  · exact congrArg _ ((if_neg (not_not.2 hcmp)).trans (if_pos ⟨hchk, hseq⟩))
  · have hcont : ¬(s.chkseq = true ∧ s.rxseq ≠ s.rxexp) := by simpa [or_iff_not_imp_left] using hpass
    exact congrArg _ ((if_neg (not_not.2 hcmp)).trans (if_neg hcont))

theorem rxStage_payload {p : Fin 132} {i : Fin 128} (hp : p.val = 3 + i.val) (b : Byte) (s : State) :
    rxStage p b s = payloadStage i b s := by
  rcases rxStage_cases p b s with ⟨h, -⟩ | ⟨h, -⟩ | ⟨h, -⟩ | ⟨j, h, e⟩ | ⟨h, -⟩
  case inr.inr.inr.inl =>
    have hji : j = i := Fin.ext (by omega)
    rw [e, hji]
  all_goals omega

/-- Settles O25: positions 3 to 130 are the payload stage, whose wrapping sum is the sum modulo 256. -/
theorem payloadByteIsStoredAndSummed : Obligations.PayloadByteIsStoredAndSummed := by
  unfold Obligations.PayloadByteIsStoredAndSummed
  intro b s i ha hp
  have hsum : s.rxsum + b = BitVec.ofNat 8 ((s.rxsum.toNat + b.toNat) % 256) :=
    BitVec.eq_of_toNat_eq (by simp)
  rw [exec_rxPush_armed b ha hp (by omega), rxStage_payload rfl, payloadStage, hsum]
  rfl

/-- Settles O26: the checksum stage branch by branch. -/
theorem checksumByteDecides : Obligations.ChecksumByteDecides := by
  unfold Obligations.ChecksumByteDecides
  intro b s ha hp
  rw [exec_rxPush_armed b ha hp (by decide)]
  exact ⟨fun hsum => congrArg _ (if_pos hsum), fun hsum => congrArg _ (if_neg hsum)⟩

/-- RX_GET's row: the indices 0 to 127 are legal (rules R72, R75). -/
theorem wordsOf_rxGet :
    WordsOf 0xA (fun imm => imm.getLsbD 7 = false) (fun imm => .rxGet (imm.setWidth 7)) := by
  refine wordsOf_of_decodeRow (fun imm hl => ?_) (fun imm hn => ⟨.indexBit, if_neg hn⟩)
  rw [BitVec.setWidth_eq_extractLsb' (by decide)]
  exact if_pos hl

/-- Settles O27: RX_GET's row takes IMM8[7] = 0 alone, and its effect has no case. -/
theorem rxGetReadsThePayload : Obligations.RxGetReadsThePayload :=
  ⟨wordsOf_rxGet, fun _ _ => rfl⟩

/-- Every command but RST, RX_ARM and RX_PUSH leaves the validator ARMED or not, as it was (rule R20). -/
theorem exec_keeps_rxact {i : Instr} {s t : State}
    (hi : i.mnemonic ∉ [Mnemonic.RST, .RX_ARM, .RX_PUSH]) (h : exec i s = .next t) :
    t.rxact = s.rxact := by
  cases i with
  | rst | rxArm m | rxPush b => simp [Instr.mnemonic] at hi
  | nop | seqSet b | seqInc | txClr | txFrame | rxGet k | rd v =>
    cases h
    rfl
  | txPut b => rcases execTxPut_next h with ⟨-, rfl⟩ | ⟨-, -, rfl⟩ | ⟨-, -, -, rfl⟩ <;> rfl
  | txPop => rcases execTxPop_next h with ⟨-, rfl⟩ | ⟨-, -, rfl⟩ <;> rfl

/-- RX_PUSH keeps the validator ARMED or not, or leaves ARMED with a verdict (rules R120, R125). -/
theorem exec_rxPush_rxact {b : Byte} {s t : State} (h : exec (.rxPush b) s = .next t) :
    t.rxact = s.rxact ∨ (t.rxact = false ∧ t.rxdone = true ∧ t.result ≠ 0x00) := by
  rcases execRxPush_next h with ⟨-, rfl⟩ | ⟨ha, hl, rfl⟩
  · exact .inl rfl
  · rcases rxStage_verdict ⟨s.rxpos.toNat, hl⟩ b { s with rxpos := s.rxpos + 1 } ha with
      ⟨hact, hdone, c, hc, hres⟩ | ⟨hact, -, -⟩
    · exact .inr ⟨hact, hdone, by rwa [hres, ne_eq, Verdict.code_eq_zero_iff]⟩
    · exact .inl (hact.trans ha.symm)

/-- Settles O46: only RST, RX_ARM and RX_PUSH write RXACT, and RX_PUSH clears it with a verdict alone. -/
theorem oneFramePerArming : Obligations.OneFramePerArming := by
  unfold Obligations.OneFramePerArming
  intro w s t h
  by_cases hsame : t.rxact = s.rxact
  · simp +contextual [hsame]
  rcases command_next h with ⟨i, hd, hexec⟩ | ⟨e, -, rfl⟩
  · cases i with
    | rst =>
      cases hexec
      exact ⟨fun _ _ => .inl (word_of_decode (m := .RST) hd rfl), fun _ ht => (nomatch ht)⟩
    | rxArm m =>
      cases hexec
      have hw := word_of_decode (m := .RX_ARM) hd rfl
      exact ⟨fun _ ht => (nomatch ht), fun _ _ => ⟨m, hw.trans (by cases m <;> rfl)⟩⟩
    | rxPush b =>
      have hw := word_of_decode (m := .RX_PUSH) hd rfl
      obtain ⟨hact, hverdict⟩ := (exec_rxPush_rxact hexec).resolve_left hsame
      exact ⟨fun _ _ => .inr ⟨⟨b, hw⟩, hverdict⟩, fun _ ht => nomatch hact.symm.trans ht⟩
    | _ => exact absurd (exec_keeps_rxact (by simp [Instr.mnemonic]) hexec) hsame
  · exact absurd rfl hsame

end Sys2Proof.Machine
end

section
/-! The verdict of a whole frame (rules R131, R157): which bytes decide it and how many bytes it takes. -/

namespace Sys2Proof.Machine

theorem frameVerdict_of_eot (chk : Bool) (e : Byte) {f : Frame} (hhdr : f[0] = Config.eot) :
    frameVerdict chk e f = .eot :=
  if_pos hhdr

theorem frameVerdict_of_badHdr (chk : Bool) (e : Byte) {f : Frame} (hsoh : f[0] ≠ Config.soh)
    (heot : f[0] ≠ Config.eot) : frameVerdict chk e f = .badHdr := by
  rw [frameVerdict, if_neg heot, if_pos hsoh]

/-- A frame that begins with SOH gets one of the four verdicts decided later. -/
theorem frameVerdict_of_soh (chk : Bool) (e : Byte) {f : Frame} (hsoh : f[0] = Config.soh) :
    frameVerdict chk e f =
      if f[2] ≠ complement f[1] then .badCmp
      else if chk = true ∧ f[1] ≠ e then .badSeq
      else if f[131] = sumBytes (framePayload f) then .ok
      else .badSum := by
  have heot : f[0] ≠ Config.eot := by rw [hsoh]; decide
  rw [frameVerdict, if_neg heot, if_neg (not_not.2 hsoh)]

theorem frameVerdict_of_badCmp (chk : Bool) (e : Byte) {f : Frame} (hsoh : f[0] = Config.soh)
    (hcmp : f[2] ≠ complement f[1]) : frameVerdict chk e f = .badCmp := by
  rw [frameVerdict_of_soh chk e hsoh, if_pos hcmp]

theorem frameVerdict_of_badSeq {chk : Bool} {e : Byte} {f : Frame} (hsoh : f[0] = Config.soh)
    (hcmp : f[2] = complement f[1]) (hchk : chk = true) (hseq : f[1] ≠ e) :
    frameVerdict chk e f = .badSeq := by
  rw [frameVerdict_of_soh chk e hsoh, if_neg (not_not.2 hcmp), if_pos ⟨hchk, hseq⟩]

/-- A frame whose first three bytes pass is judged by its checksum byte (rule R130). -/
theorem frameVerdict_of_passed {chk : Bool} {e : Byte} {f : Frame} (hsoh : f[0] = Config.soh)
    (hcmp : f[2] = complement f[1]) (hseq : chk = true → f[1] = e) :
    frameVerdict chk e f = if f[131] = sumBytes (framePayload f) then .ok else .badSum := by
  rw [frameVerdict_of_soh chk e hsoh, if_neg (not_not.2 hcmp), if_neg fun h => h.2 (hseq h.1)]

/-- A whole frame is always judged, after 1, 3 or 132 bytes (rule R131). -/
theorem bytesTaken_frameVerdict (chk : Bool) (e : Byte) (f : Frame) :
    (frameVerdict chk e f).bytesTaken = 1 ∨ (frameVerdict chk e f).bytesTaken = 3 ∨
      (frameVerdict chk e f).bytesTaken = 132 := by
  unfold frameVerdict
  split_ifs <;> simp [Verdict.bytesTaken]

theorem bytesTaken_frameVerdict_pos (chk : Bool) (e : Byte) (f : Frame) :
    0 < (frameVerdict chk e f).bytesTaken := by
  have hrange := bytesTaken_frameVerdict chk e f
  omega

theorem one_lt_bytesTaken_iff (chk : Bool) (e : Byte) (f : Frame) :
    1 < (frameVerdict chk e f).bytesTaken ↔ f[0] = Config.soh := by
  by_cases hsoh : f[0] = Config.soh
  · rw [frameVerdict_of_soh chk e hsoh]
    split_ifs <;> simp [Verdict.bytesTaken, hsoh]
  · by_cases heot : f[0] = Config.eot
    · simp [frameVerdict_of_eot chk e heot, Verdict.bytesTaken, hsoh]
    · simp [frameVerdict_of_badHdr chk e hsoh heot, Verdict.bytesTaken, hsoh]

theorem three_lt_bytesTaken_iff (chk : Bool) (e : Byte) (f : Frame) :
    3 < (frameVerdict chk e f).bytesTaken ↔
      f[0] = Config.soh ∧ f[2] = complement f[1] ∧ (chk = true → f[1] = e) := by
  refine ⟨fun h => ?_, fun ⟨hsoh, hcmp, hseq⟩ => ?_⟩
  · have hsoh : f[0] = Config.soh := (one_lt_bytesTaken_iff chk e f).1 (by omega)
    have hcmp : f[2] = complement f[1] := by_contra fun hcmp => by
      simp [frameVerdict_of_badCmp chk e hsoh hcmp, Verdict.bytesTaken] at h
    have hseq : chk = true → f[1] = e := fun hchk => by_contra fun hseq => by
      simp [frameVerdict_of_badSeq hsoh hcmp hchk hseq, Verdict.bytesTaken] at h
    exact ⟨hsoh, hcmp, hseq⟩
  · rw [frameVerdict_of_passed hsoh hcmp hseq]
    split_ifs <;> simp [Verdict.bytesTaken]

theorem length_framePayload (f : Frame) : (framePayload f).length = 128 := by
  simp [framePayload]

/-- The payload's bytes stand at positions 3 to 130 of a frame (rule R13). -/
theorem getElem_framePayload (f : Frame) (i : Fin 128) :
    (framePayload f)[i.val]'(by rw [length_framePayload]; exact i.isLt) = f[3 + i.val] := by
  simp [framePayload]

end Sys2Proof.Machine
end

section
/-! Reception: what the validator holds of a frame after n of its bytes, and its verdict on it (rules R124 to
R131). -/

namespace Sys2Proof.Machine

/-- The validator holds the first `n` bytes of a frame: the captured ones in their registers, the payload in
RXBUF and its sum in RXSUM (rules R29, R32, R36). -/
structure State.Holds (s : State) (f : Frame) (n : Nat) : Prop where
  rxhdr : 0 < n → s.rxhdr = f[0]
  rxseq : 1 < n → s.rxseq = f[1]
  rxcmp : 2 < n → s.rxcmp = f[2]
  rxck : 131 < n → s.rxck = f[131]
  rxbuf : s.rxbuf.toList.take (n - 3) = (framePayload f).take (n - 3)
  rxsum : s.rxsum = sumBytes ((framePayload f).take (n - 3))

theorem State.Holds.setRxpos {s : State} {f : Frame} {n : Nat} (h : s.Holds f n) (q : Byte) :
    { s with rxpos := q }.Holds f n :=
  ⟨h.rxhdr, h.rxseq, h.rxcmp, h.rxck, h.rxbuf, h.rxsum⟩

/-- From position 131 on RXSUM is the sum of the whole payload (rules R32, R130). -/
theorem State.Holds.rxsum_of_whole {s : State} {f : Frame} {n : Nat} (h : s.Holds f n) (hn : 131 ≤ n) :
    s.rxsum = sumBytes (framePayload f) := by
  have hlen := length_framePayload f
  rw [h.rxsum, List.take_of_length_le (by omega)]

/-- From position 131 on RXBUF is the whole payload (rule R29). -/
theorem State.Holds.rxbuf_of_whole {s : State} {f : Frame} {n : Nat} (h : s.Holds f n) (hn : 131 ≤ n) :
    s.rxbuf.toList = framePayload f := by
  have hlen := length_framePayload f
  have hbuf : s.rxbuf.toList.length = 128 := by simp
  have htake := h.rxbuf
  rwa [List.take_of_length_le (by omega), List.take_of_length_le (by omega)] at htake

/-- ARMED with no verdict (rule R30). -/
def State.Armed (s : State) : Prop := s.rxact = true ∧ s.rxdone = false ∧ s.result = 0x00

/-- DONE with the verdict `v` (rules R30, R125). -/
def State.Judged (s : State) (v : Verdict) : Prop :=
  s.rxact = false ∧ s.rxdone = true ∧ s.result = v.code

/-- After `n` bytes of a frame whose verdict is `v`: ARMED while `v` takes more bytes than that, DONE with `v`
when it takes just so many (rule R131). -/
structure State.JudgedInTime (s : State) (v : Verdict) (n : Nat) : Prop where
  before : n < v.bytesTaken → s.Armed
  after : n = v.bytesTaken → s.Judged v

theorem State.Armed.judgedInTime {s : State} {v : Verdict} {n : Nat} (h : s.Armed)
    (hn : n < v.bytesTaken) : s.JudgedInTime v n :=
  ⟨fun _ => h, fun e => absurd e hn.ne⟩

theorem conclude_judgedInTime {v : Verdict} {n : Nat} (s : State) (hn : n = v.bytesTaken) :
    (conclude v s).JudgedInTime v n :=
  ⟨fun hlt => absurd hn hlt.ne, fun _ => ⟨rfl, rfl, rfl⟩⟩

/-- Each capture register is written at its own position alone (rule R36). -/
theorem rxStage_captures (p : Fin 132) (b : Byte) (s : State) :
    (rxStage p b s).rxhdr = (if p.val = 0 then b else s.rxhdr) ∧
    (rxStage p b s).rxseq = (if p.val = 1 then b else s.rxseq) ∧
    (rxStage p b s).rxcmp = (if p.val = 2 then b else s.rxcmp) ∧
    (rxStage p b s).rxck = (if p.val = 131 then b else s.rxck) := by
  rcases rxStage_cases p b s with ⟨hp, e⟩ | ⟨hp, e⟩ | ⟨hp, e⟩ | ⟨i, hp, e⟩ | ⟨hp, e⟩ <;> rw [e]
  · rcases headerStage_cases b s with ⟨-, e⟩ | ⟨-, e⟩ | ⟨-, -, e⟩ <;> rw [e] <;> simp [hp]
  · simp [seqStage, hp]
  · rcases cmpStage_cases b s with ⟨-, e⟩ | ⟨-, -, -, e⟩ | ⟨-, -, e⟩ <;> rw [e] <;> simp [hp]
  · have hother : p.val ≠ 0 ∧ p.val ≠ 1 ∧ p.val ≠ 2 ∧ p.val ≠ 131 := by omega
    simp [payloadStage, hother]
  · rcases sumStage_cases b s with ⟨-, e⟩ | ⟨-, e⟩ <;> rw [e] <;> simp [hp]

/-- A register that holds byte `k` once position `k` is passed does so after one more byte. -/
theorem capture_of_lt_succ {f : Frame} {p k : Fin 132} {r : Byte} (h : k.val < p.val → r = f[k]) :
    k.val < p.val + 1 → (if p.val = k.val then f[p] else r) = f[k] := by
  intro hlt
  by_cases hpk : p = k
  · rw [if_pos (congrArg Fin.val hpk), hpk]
  · have hne : p.val ≠ k.val := fun e => hpk (Fin.ext e)
    rw [if_neg hne]
    exact h (by omega)

/-- Past the header bytes and past the payload, a position more takes no more of a payload. -/
theorem take_succ_outside {bs : List Byte} {p : Nat} (hlen : bs.length = 128) (hp : p < 3 ∨ p = 131) :
    bs.take (p + 1 - 3) = bs.take (p - 3) := by
  rcases hp with hp | hp
  · have hzero : p + 1 - 3 = p - 3 := by omega
    rw [hzero]
  · rw [List.take_of_length_le (by omega), List.take_of_length_le (by omega)]

/-- The stage of the next byte makes RXBUF and RXSUM hold one byte more (rule R129). -/
theorem rxStage_holds_payload {f : Frame} {p : Fin 132} {s : State} (h : s.Holds f p.val) :
    (rxStage p f[p] s).rxbuf.toList.take (p.val + 1 - 3) = (framePayload f).take (p.val + 1 - 3) ∧
    (rxStage p f[p] s).rxsum = sumBytes ((framePayload f).take (p.val + 1 - 3)) := by
  have hlen := length_framePayload f
  rcases rxStage_rxbuf_rxsum p f[p] s with ⟨i, hp, hbuf, hsum⟩ | ⟨hp, hbuf, hsum⟩ <;>
    rw [hbuf, hsum, h.rxsum]
  · have hold : p.val - 3 = i.val := by omega
    have hnew : p.val + 1 - 3 = i.val + 1 := by omega
    have hi : i.val < (framePayload f).length := by omega
    have hbyte : (framePayload f)[i.val] = f[p] := by simp [getElem_framePayload, hp]
    have hfront := h.rxbuf
    rw [hold] at hfront ⊢
    rw [hnew, take_succ_bufWrite, sumBytes_take_succ _ _ hi, List.take_succ_eq_append_getElem hi, hbyte,
      hfront]
    exact ⟨rfl, rfl⟩
  · rw [take_succ_outside (by simp) hp, take_succ_outside hlen hp, h.rxbuf]
    exact ⟨rfl, rfl⟩

/-- The stage of the next byte makes the validator hold one byte more. -/
theorem rxStage_holds {f : Frame} {p : Fin 132} {s : State} (h : s.Holds f p.val) :
    (rxStage p f[p] s).Holds f (p.val + 1) := by
  obtain ⟨hhdr, hseq, hcmp, hck⟩ := rxStage_captures p f[p] s
  obtain ⟨hbuf, hsum⟩ := rxStage_holds_payload h
  exact {
    rxhdr := fun hn => hhdr.trans (capture_of_lt_succ (k := 0) h.rxhdr hn)
    rxseq := fun hn => hseq.trans (capture_of_lt_succ (k := 1) h.rxseq hn)
    rxcmp := fun hn => hcmp.trans (capture_of_lt_succ (k := 2) h.rxcmp hn)
    rxck := fun hn => hck.trans (capture_of_lt_succ (k := 131) h.rxck hn)
    rxbuf := hbuf
    rxsum := hsum }

/-- The stage of the next byte gives the frame's verdict when that verdict takes one byte more, and no
verdict when it takes more than that (rules R126 to R131). -/
theorem rxStage_judgedInTime {f : Frame} {p : Fin 132} {s : State} (hs : s.Holds f p.val)
    (ha : s.Armed) (hlt : p.val < (frameVerdict s.chkseq s.rxexp f).bytesTaken) :
    (rxStage p f[p] s).JudgedInTime (frameVerdict s.chkseq s.rxexp f) (p.val + 1) := by
  have hrange := bytesTaken_frameVerdict s.chkseq s.rxexp f
  rcases rxStage_cases p f[p] s with ⟨hp, e⟩ | ⟨hp, e⟩ | ⟨hp, e⟩ | ⟨i, hp, e⟩ | ⟨hp, e⟩ <;> rw [e]
  · have hbyte : f[p] = f[0] := by simp [hp]
    rw [hbyte, hp]
    rcases headerStage_cases f[0] s with ⟨hsoh, e⟩ | ⟨heot, e⟩ | ⟨hsoh, heot, e⟩ <;> rw [e]
    · exact State.Armed.judgedInTime ha ((one_lt_bytesTaken_iff _ _ f).2 hsoh)
    · rw [frameVerdict_of_eot _ _ heot]
      exact conclude_judgedInTime _ rfl
    · rw [frameVerdict_of_badHdr _ _ hsoh heot]
      exact conclude_judgedInTime _ rfl
  · exact State.Armed.judgedInTime ha (by omega)
  · have hsoh : f[0] = Config.soh := (one_lt_bytesTaken_iff s.chkseq s.rxexp f).1 (by omega)
    have hbyte : f[p] = f[2] := by simp [hp]
    have hseq : s.rxseq = f[1] := hs.rxseq (by omega)
    rw [hbyte, hp]
    rcases cmpStage_cases f[2] s with ⟨hcmp, e⟩ | ⟨hcmp, hchk, hexp, e⟩ | ⟨hcmp, hexp, e⟩ <;>
      rw [hseq] at hcmp <;> rw [e]
    · rw [frameVerdict_of_badCmp _ _ hsoh hcmp]
      exact conclude_judgedInTime _ rfl
    · rw [frameVerdict_of_badSeq hsoh hcmp hchk (hseq ▸ hexp)]
      exact conclude_judgedInTime _ rfl
    · exact State.Armed.judgedInTime ha ((three_lt_bytesTaken_iff _ _ f).2 ⟨hsoh, hcmp, hseq ▸ hexp⟩)
  · exact State.Armed.judgedInTime ha (by omega)
  · obtain ⟨hsoh, hcmp, hexp⟩ := (three_lt_bytesTaken_iff s.chkseq s.rxexp f).1 (by omega)
    have hbyte : f[p] = f[131] := by simp [hp]
    rw [frameVerdict_of_passed hsoh hcmp hexp, hbyte, hp, ← hs.rxsum_of_whole hp.ge]
    rcases sumStage_cases f[131] s with ⟨hck, e⟩ | ⟨hck, e⟩ <;> rw [e]
    · rw [if_pos hck]
      exact conclude_judgedInTime _ rfl
    · rw [if_neg hck]
      exact conclude_judgedInTime _ rfl

/-- What arming with mode `m` in the state `s` and pushing the first `n` bytes of a frame leads to. -/
structure Reception (m : Bool) (s : State) (f : Frame) (n : Nat) (t : State) : Prop where
  rxpos : t.rxpos.toNat = n
  rxexp : t.rxexp = s.seq
  chkseq : t.chkseq = m
  err : t.err = s.err
  holds : t.Holds f n
  judged : t.JudgedInTime (frameVerdict m s.seq f) n

theorem decode_rxArmWord (m : Bool) : decode (rxArmWord m) = .ok (.rxArm m) := by
  cases m <;> decide

theorem decode_rxPushWord (b : Byte) : decode (rxPushWord b) = .ok (.rxPush b) :=
  decode_word 0x9 b

/-- RX_ARM begins a reception (rule R121). -/
theorem command_rxArm (m : Bool) (s : State) (f : Frame) :
    ∃ t, command (rxArmWord m) s = .next t ∧ Reception m s f 0 t := by
  refine ⟨_, (command_of_ok (decode_rxArmWord m) s).trans (exec_rxArm m s), rfl, rfl, rfl, rfl, ?_,
    State.Armed.judgedInTime ⟨rfl, rfl, rfl⟩ (bytesTaken_frameVerdict_pos m s.seq f)⟩
  constructor <;> simp

/-- RX_PUSH of the next byte goes on with a reception that has no verdict yet (rule R124). -/
theorem command_rxPush {m : Bool} {s t : State} {f : Frame} {p : Fin 132}
    (h : Reception m s f p.val t) (hlt : p.val < (frameVerdict m s.seq f).bytesTaken) :
    ∃ u, command (rxPushWord f[p]) t = .next u ∧ Reception m s f (p.val + 1) u := by
  have harmed : t.Armed := h.judged.before hlt
  have hholds := h.holds.setRxpos (BitVec.ofNat 8 (p.val + 1))
  have hverdict : frameVerdict m s.seq f = frameVerdict t.chkseq t.rxexp f := by
    rw [h.chkseq, h.rxexp]
  have hjudged := rxStage_judgedInTime hholds harmed (hverdict ▸ hlt)
  refine ⟨_, (command_of_ok (decode_rxPushWord _) t).trans
    (exec_rxPush_armed _ harmed.1 h.rxpos p.isLt), ?_, ?_, ?_, ?_, rxStage_holds hholds,
    hverdict ▸ hjudged⟩
  · rw [rxStage_rxpos, BitVec.toNat_ofNat]
    omega
  · exact (rxStage_rxexp _ _ _).trans h.rxexp
  · exact (rxStage_chkseq _ _ _).trans h.chkseq
  · exact (rxStage_err _ _ _).trans h.err

theorem run_concat {ws : List CommandWord} {w : CommandWord} {s t u : State} {rs : List Byte}
    (hrun : run ws s = .next (t, rs)) (hw : command w t = .next u) :
    run (ws ++ [w]) s = .next (u, rs ++ [u.resp]) := by
  have hlast : run [w] t = .next (u, [u.resp]) := run_cons_of_next hw rfl
  rw [run_append hrun, hlast]

/-- A reception up to any byte at which no verdict stood before (rules R124, R131). -/
theorem run_rxArm_rxPushes {m : Bool} {s : State} {f : Frame} {n : Nat}
    (hn : n ≤ (frameVerdict m s.seq f).bytesTaken) :
    ∃ t rs, run (rxArmWord m :: (f.toList.take n).map rxPushWord) s = .next (t, rs) ∧
      Reception m s f n t := by
  induction n with
  | zero =>
    obtain ⟨t, harm, h⟩ := command_rxArm m s f
    exact ⟨t, _, run_cons_of_next harm rfl, h⟩
  | succ n ih =>
    obtain ⟨t, rs, hrun, h⟩ := ih (by omega)
    have hlen : n < 132 := by
      have hrange := bytesTaken_frameVerdict m s.seq f
      omega
    obtain ⟨u, hpush, hu⟩ := command_rxPush (p := ⟨n, hlen⟩) h hn
    have hwords : (f.toList.take (n + 1)).map rxPushWord =
        (f.toList.take n).map rxPushWord ++ [rxPushWord f[n]] := by
      rw [List.take_succ_eq_append_getElem (by simpa using hlen), List.map_append]
      simp
    rw [hwords, ← List.cons_append]
    exact ⟨u, _, run_concat hrun hpush, hu⟩

/-- A reception up to the verdict (rule R131). -/
theorem run_rxArm_rxPushes_verdict {m : Bool} {s : State} {f : Frame} {v : Verdict}
    (hv : frameVerdict m s.seq f = v) :
    ∃ t rs, run (rxArmWord m :: (f.toList.take v.bytesTaken).map rxPushWord) s = .next (t, rs) ∧
      Reception m s f v.bytesTaken t ∧ t.Judged v := by
  subst hv
  obtain ⟨t, rs, hrun, h⟩ := run_rxArm_rxPushes (m := m) (s := s) (f := f) le_rfl
  exact ⟨t, rs, hrun, h, h.judged.after rfl⟩

/-- Settles O55: a reception of fewer bytes than the verdict takes is ARMED, and one of so many has the
verdict and the captures. -/
theorem everyFrameGetsItsVerdict : Obligations.EveryFrameGetsItsVerdict := by
  unfold Obligations.EveryFrameGetsItsVerdict
  intro f m s
  dsimp only
  refine ⟨bytesTaken_frameVerdict m s.seq f, fun n hn => ?_, ?_⟩
  · obtain ⟨t, rs, hrun, h⟩ := run_rxArm_rxPushes hn.le
    obtain ⟨hact, hdone, hresult⟩ := h.judged.before hn
    exact ⟨t, rs, hrun, hact, hdone, hresult, h.rxpos⟩
  · obtain ⟨t, rs, hrun, h, hact, hdone, hresult⟩ :=
      run_rxArm_rxPushes_verdict (m := m) (s := s) (f := f) rfl
    exact ⟨t, rs, hrun, hact, hdone, hresult, h.rxpos, h.rxexp, h.chkseq,
      h.holds.rxhdr (bytesTaken_frameVerdict_pos m s.seq f),
      fun hthree => ⟨h.holds.rxseq (by omega), h.holds.rxcmp (by omega)⟩,
      fun hall => ⟨h.holds.rxck (by omega), h.holds.rxsum_of_whole (by omega),
        h.holds.rxbuf_of_whole (by omega)⟩⟩

end Sys2Proof.Machine
end

section
/-! The round trip (rule R134): the verdict on an encoded frame, and its reception. -/

namespace Sys2Proof.Machine

/-- The frame of a sequence number and a payload, byte by byte as rule R107 writes it. -/
def encodedFrame (seq : Byte) (p : Buffer) : Frame :=
  Vector.ofFn fun k => frameAt seq p (payloadSum p) k.val

theorem toList_encodedFrame (seq : Byte) (p : Buffer) :
    (encodedFrame seq p).toList = [0x01, seq, 0xFF - seq] ++ p.toList ++ [payloadSum p] := by
  rw [← map_frameAt_range, encodedFrame, Vector.toList_ofFn, List.ofFn_eq_map,
    ← List.map_coe_finRange_eq_range, List.map_map]
  rfl

theorem framePayload_encodedFrame (seq : Byte) (p : Buffer) :
    framePayload (encodedFrame seq p) = p.toList := by
  simp [framePayload, toList_encodedFrame]

/-- The four bytes of an encoded frame around its payload (rule R107). -/
theorem getElem_encodedFrame (seq : Byte) (p : Buffer) :
    (encodedFrame seq p)[0] = Config.soh ∧ (encodedFrame seq p)[1] = seq ∧
    (encodedFrame seq p)[2] = complement seq ∧ (encodedFrame seq p)[131] = payloadSum p :=
  ⟨Vector.getElem_ofFn _, Vector.getElem_ofFn _, Vector.getElem_ofFn _, Vector.getElem_ofFn _⟩

theorem frameVerdict_encodedFrame_ok {chk : Bool} {e seq : Byte} (p : Buffer)
    (h : chk = false ∨ e = seq) : frameVerdict chk e (encodedFrame seq p) = .ok := by
  obtain ⟨hsoh, hseq, hcmp, hck⟩ := getElem_encodedFrame seq p
  have hexp : chk = true → seq = e := fun hc => (h.resolve_left (by simp [hc])).symm
  have hsum : payloadSum p = sumBytes p.toList := (checksum_eq_payloadSum p).symm
  rw [frameVerdict_of_passed hsoh (by rw [hcmp, hseq]) (by rwa [hseq]), hck,
    framePayload_encodedFrame, if_pos hsum]

theorem frameVerdict_encodedFrame_badSeq {chk : Bool} {e seq : Byte} (p : Buffer) (hc : chk = true)
    (he : e ≠ seq) : frameVerdict chk e (encodedFrame seq p) = .badSeq := by
  obtain ⟨hsoh, hseq, hcmp, -⟩ := getElem_encodedFrame seq p
  exact frameVerdict_of_badSeq hsoh (by rw [hcmp, hseq]) hc (by rwa [hseq, ne_comm])

/-- Settles O56: the reception of an encoded frame up to its verdict, which is OK or BADSEQ. -/
theorem encodedFrameIsDecoded : Obligations.EncodedFrameIsDecoded := by
  unfold Obligations.EncodedFrameIsDecoded
  intro seq p m s
  dsimp only
  rw [← toList_encodedFrame]
  refine ⟨fun hnum => ?_, fun hm hnum => ?_⟩
  · obtain ⟨t, rs, hrun, h, -, -, hresult⟩ :=
      run_rxArm_rxPushes_verdict (frameVerdict_encodedFrame_ok p hnum)
    obtain ⟨-, hseq, -⟩ := getElem_encodedFrame seq p
    have hbuf : t.rxbuf.toList = p.toList :=
      (h.holds.rxbuf_of_whole (by decide)).trans (framePayload_encodedFrame seq p)
    have hwhole : (encodedFrame seq p).toList.take Verdict.ok.bytesTaken = (encodedFrame seq p).toList :=
      List.take_of_length_le Vector.length_toList.le
    rw [hwhole] at hrun
    exact ⟨t, rs, hrun, hresult, (h.holds.rxseq (by decide)).trans hseq, Vector.toList_inj.1 hbuf,
      BitVec.eq_of_toNat_eq h.rxpos, h.err⟩
  · obtain ⟨t, rs, hrun, h, -, hdone, hresult⟩ :=
      run_rxArm_rxPushes_verdict (frameVerdict_encodedFrame_badSeq p hm hnum)
    exact ⟨t, rs, hrun, hresult, hdone, BitVec.eq_of_toNat_eq h.rxpos⟩

end Sys2Proof.Machine
end

section
/-! NOP (43_system.md, rule R140). -/

namespace Sys2Proof.Machine

/-- NOP's whole effect: the next state is the state itself. -/
theorem exec_nop (s : State) : exec .nop s = .next s := rfl

/-- Settles O11: the words are the row of a command with no operand, the effect is `exec_nop`. -/
theorem nopChangesNothing : Obligations.NopChangesNothing :=
  ⟨wordsOf_none fun _ => rfl, exec_nop⟩

end Sys2Proof.Machine
end

section
/-! Errors (60_exceptions.md, rules R150 to R156): what a command word does about ERR, said once for every
word, and the verdicts, which are no errors. -/

namespace Sys2Proof.Machine

/-- The state an error leaves: its ERR bit set and, for TXEMPTY, RESP = 0x00 (rules R151, R155). -/
def afterError (e : ErrCause) (s : State) : State :=
  match e with
  | .txEmpty => setErr .txEmpty (respond 0x00 s)
  | e => setErr e s

@[simp] theorem afterError_err (e : ErrCause) (s : State) :
    (afterError e s).err = s.err ||| (1#8 <<< e.bit) := by
  cases e <;> rfl

/-- A word that raises the bits `r` leads from `s` to `t`: with no bit ERR stays as it is, and otherwise
`r` is the bit of one cause, and the error is all that happens. -/
def Raises (r : Byte) (s t : State) : Prop :=
  (r = 0x00 ∧ t.err = s.err) ∨ ∃ e : ErrCause, r = 1#8 <<< e.bit ∧ t = afterError e s

theorem Raises.err {r : Byte} {s t : State} (h : Raises r s t) : t.err = s.err ||| r := by
  rcases h with ⟨rfl, herr⟩ | ⟨e, rfl, rfl⟩
  · rw [herr]
    exact BitVec.or_zero.symm
  · exact afterError_err e s

theorem Raises.eq_of_ne_zero {r : Byte} {s t : State} (h : Raises r s t) (hr : r ≠ 0x00) :
    t = { s with err := s.err ||| r, resp := if r = 0x08 then 0x00 else s.resp } := by
  rcases h with ⟨h0, -⟩ | ⟨e, rfl, rfl⟩
  · exact absurd h0 hr
  · cases e <;> rfl

theorem Raises.mem_bits {r : Byte} {s t : State} (h : Raises r s t) :
    r ∈ [(0x00 : Byte), 0x01, 0x02, 0x04, 0x08, 0x10] := by
  rcases h with ⟨rfl, -⟩ | ⟨e, rfl, -⟩
  · decide
  · cases e <;> decide

/-- A legal word other than RST raises what rule R150's table says for its command. -/
theorem exec_raises {w : CommandWord} {i : Instr} {s t : State} (hd : decode w = .ok i) (hi : i ≠ .rst)
    (h : exec i s = .next t) : Raises (raisedBits w s) s t := by
  unfold raisedBits
  rw [hd]
  cases i with
  | rst => exact absurd rfl hi
  | nop | seqSet b | seqInc | txClr | txFrame | rxArm m | rxGet k | rd v =>
    cases h
    exact .inl ⟨rfl, rfl⟩
  | txPut b =>
    rcases execTxPut_next h with ⟨ha, rfl⟩ | ⟨ha, hc, rfl⟩ | ⟨ha, -, hl, rfl⟩
    · exact .inr ⟨.txBusy, by simp [ha, ErrCause.bit], rfl⟩
    · exact .inr ⟨.txFull, by simp [ha, hc, ErrCause.bit], rfl⟩
    · exact .inl ⟨by simp [ha, hl.ne], rfl⟩
  | txPop =>
    rcases execTxPop_next h with ⟨ha, rfl⟩ | ⟨ha, -, rfl⟩
    · exact .inr ⟨.txEmpty, by simp [ha, ErrCause.bit], rfl⟩
    · exact .inl ⟨by simp [ha], rfl⟩
  | rxPush b =>
    rcases execRxPush_next h with ⟨ha, rfl⟩ | ⟨ha, hl, rfl⟩
    · exact .inr ⟨.rxIdle, by simp [ha, ErrCause.bit], rfl⟩
    · exact .inl ⟨by simp [ha], rxStage_err _ b _⟩

/-- Every word but RST's, legal or not, raises what rule R150's table says for it. -/
theorem command_raises {w : CommandWord} {s t : State} (hw : w ≠ 0x1000) (h : command w s = .next t) :
    Raises (raisedBits w s) s t := by
  rcases command_next h with ⟨i, hd, hexec⟩ | ⟨e, hd, rfl⟩
  · refine exec_raises hd ?_ hexec
    rintro rfl
    exact hw (word_of_decode (m := .RST) hd rfl)
  · exact .inr ⟨.illegal, by rw [raisedBits, hd]; rfl, rfl⟩

theorem command_rst (s : State) : command 0x1000 s = .next (resetRegisters s) :=
  command_of_ok (i := .rst) (by decide) s

theorem raisedBits_rst (s : State) : raisedBits 0x1000 s = 0x00 := rfl

theorem err_of_command_rst {s t : State} (h : command 0x1000 s = .next t) : t.err = 0x00 := by
  rw [command_rst] at h
  cases h
  rfl

/-- Settles O41: RST raises nothing and clears ERR, and every other word does what `Raises` says. -/
theorem errorsAreTheFiveCauses : Obligations.ErrorsAreTheFiveCauses := by
  unfold Obligations.ErrorsAreTheFiveCauses
  intro w s t h
  by_cases hw : w = 0x1000
  · subst hw
    exact ⟨fun hne => absurd rfl hne, fun _ => err_of_command_rst h,
      fun hr => absurd (raisedBits_rst s) hr, by rw [raisedBits_rst]; decide⟩
  · have hraises := command_raises hw h
    exact ⟨fun _ => hraises.err, fun hrst => absurd hrst hw, hraises.eq_of_ne_zero, hraises.mem_bits⟩

theorem reset_atResetValues : AtResetValues State.reset := by
  simp [AtResetValues, State.reset, zeroBuffer, Config.seqReset]

/-- Settles O42: a word other than RST's ORs its bits into ERR, so the bits of ERR stay. -/
theorem errBitsAreSticky : Obligations.ErrBitsAreSticky := by
  unfold Obligations.ErrBitsAreSticky
  refine ⟨fun w s t h => ⟨fun hw k hk => ?_, ?_⟩, fun w s t h hw hsame => ?_, reset_atResetValues⟩
  · rw [(command_raises hw h).err, BitVec.getLsbD_or, hk, Bool.true_or]
  · rintro rfl
    exact err_of_command_rst h
  · exact (command_raises hw h).err.trans hsame

/-- The codes of the six verdicts (rule R34). -/
theorem Verdict.code_mem {c : Verdict} (hc : c ≠ .none) :
    c.code ∈ [(0x01 : Byte), 0x02, 0x03, 0x04, 0x05, 0x06] := by
  cases c with
  | none => exact absurd rfl hc
  | ok | eot | badHdr | badCmp | badSeq | badSum => decide

/-- Settles O44: an accepted byte runs a stage, no stage writes ERR, and a stage ends the frame with a
verdict or leaves RXDONE and RESULT. -/
theorem verdictsAreNotErrors : Obligations.VerdictsAreNotErrors := by
  unfold Obligations.VerdictsAreNotErrors
  intro b s t ha h
  rcases execRxPush_next h with ⟨hidle, -⟩ | ⟨-, hl, rfl⟩
  · exact nomatch ha.symm.trans hidle
  refine ⟨rxStage_err _ b _, ?_⟩
  rcases rxStage_verdict ⟨s.rxpos.toNat, hl⟩ b { s with rxpos := s.rxpos + 1 } ha with
    ⟨hact, hdone, c, hc, hres⟩ | ⟨hact, hdone, hres⟩
  · exact ⟨fun _ => ⟨hdone, hres ▸ Verdict.code_mem hc⟩, fun harmed => nomatch hact.symm.trans harmed⟩
  · exact ⟨fun hnot => (nomatch hact.symm.trans hnot), fun _ => ⟨hdone, hres⟩⟩

end Sys2Proof.Machine
end

section
/-! Writing SEQ after it was latched (rule R176). -/

namespace Sys2Proof.Machine

/-- SEQ_SET and SEQ_INC write SEQ and nothing else (rules R90, R91). -/
theorem exec_seqWriter {i : Instr} (hi : i.mnemonic = .SEQ_SET ∨ i.mnemonic = .SEQ_INC) (s : State) :
    ∃ v, exec i s = .next { s with seq := v } := by
  cases i with
  | seqSet b => exact ⟨b, rfl⟩
  | seqInc => exact ⟨_, exec_seqInc s⟩
  | _ => simp [Instr.mnemonic] at hi

/-- The frame being emitted is made of TXSEQ, TXBUF and TXSUM, so a new SEQ leaves every byte of it (rule
R107). -/
theorem frameByte_with_seq (s : State) (v : Byte) (k : Fin 132) :
    frameByte { s with seq := v } k = frameByte s k := by
  rw [frameByte_eq_frameAt, frameByte_eq_frameAt]

/-- Settles O47: both latches are fields of the commands' effects, and a writer of SEQ touches no latch. -/
theorem sequenceNumbersAreLatched : Obligations.SequenceNumbersAreLatched := by
  unfold Obligations.SequenceNumbersAreLatched
  refine ⟨fun s => ⟨_, exec_txFrame s, rfl⟩, fun m s => ⟨_, exec_rxArm m s, rfl⟩, fun i s hi => ?_⟩
  obtain ⟨v, hexec⟩ := exec_seqWriter hi s
  exact ⟨_, hexec, rfl, rfl, rfl, frameByte_with_seq s v⟩

end Sys2Proof.Machine
end

section
/-! Encoding (rules R70 to R75, R82): an encoded command as its fields, and the source lines of the
instructions. -/

namespace Sys2Proof

/-- `match OR v` puts the operand bits in the low byte (rules R72, R82). -/
theorem encode_eq (i : Instr) : encode i = (i.mnemonic.opcode ++ 0#4 : Byte) ++ i.imm8 := by
  have himm : i.imm8.setWidth 16 = 0#8 ++ i.imm8 := BitVec.setWidth_eq_append (by decide)
  rw [encode, matchWord_eq, himm, BitVec.or_append, BitVec.or_zero, BitVec.zero_or]

theorem decodeIndex_setWidth (k : BufIndex) : decodeIndex (k.setWidth 8) = .ok (.rxGet k) := by
  revert k
  decide

/-- Each row of rule R75 reads its own commands' operand bits back. -/
theorem decodeRow_imm8 (i : Instr) : decodeRow i.mnemonic.opcode i.imm8 = .ok i := by
  cases i with
  | nop | rst | seqInc | txClr | txFrame | txPop | seqSet b | txPut b | rxPush b => rfl
  | rxArm m => cases m <;> rfl
  | rxGet k => exact decodeIndex_setWidth k
  | rd v => cases v <;> rfl

theorem decode_encode (i : Instr) : decode (encode i) = .ok i := by
  rw [encode_eq]
  exact (decode_word _ _).trans (decodeRow_imm8 i)

/-- Settles O1: an encoded command has its row's fields, and the row reads the operand back. -/
theorem decodeOfEncodeIsTheInstruction : Obligations.DecodeOfEncodeIsTheInstruction := by
  unfold Obligations.DecodeOfEncodeIsTheInstruction
  exact fun i _ => decode_encode i

/-- Settles O2: a legal word has the fields of its command's row, which are the encoding's. -/
theorem encodeOfDecodeIsTheWord : Obligations.EncodeOfDecodeIsTheWord := by
  unfold Obligations.EncodeOfDecodeIsTheWord
  exact fun w i h => (encode_eq i).trans (word_of_decode h rfl).symm

/-- Settles O7: each word is the encoding of the command it decodes to. -/
theorem writtenOutWordsDecode : Obligations.WrittenOutWordsDecode :=
  ⟨decode_encode .nop, decode_encode .rst, decode_encode (.seqSet 0x01), decode_encode .seqInc,
    decode_encode .txClr, decode_encode (.txPut 0x41), decode_encode .txFrame, decode_encode .txPop,
    decode_encode (.rxArm true), decode_encode (.rxPush 0x01), decode_encode (.rxGet 9),
    decode_encode (.rd .seq)⟩

theorem instr_wf (i : Instr) : i.wf = true := by
  cases i with
  | nop => exact Laws.LegalOperand.nop
  | rst => exact Laws.LegalOperand.rst
  | seqSet b => exact Laws.LegalOperand.seqSet b
  | seqInc => exact Laws.LegalOperand.seqInc
  | txClr => exact Laws.LegalOperand.txClr
  | txPut b => exact Laws.LegalOperand.txPut b
  | txFrame => exact Laws.LegalOperand.txFrame
  | txPop => exact Laws.LegalOperand.txPop
  | rxArm m => exact Laws.LegalOperand.rxArm m
  | rxPush b => exact Laws.LegalOperand.rxPush b
  | rxGet k => exact Laws.LegalOperand.rxGet k
  | rd v => exact Laws.LegalOperand.rd v

/-- The operand as a number is IMM8 zero-extended (rule R72). -/
theorem ofNat_operand (i : Instr) :
    BitVec.ofNat 16 (i.sourceLine.operand.getD 0) = i.imm8.setWidth 16 := by
  cases i with
  | nop | rst | seqInc | txClr | txFrame | txPop => rfl
  | seqSet b | txPut b | rxPush b => exact BitVec.ofNat_toNat 16 b
  | rxArm m => cases m <;> rfl
  | rxGet k =>
    refine (BitVec.ofNat_toNat 16 k).trans (BitVec.eq_of_toNat_eq ?_)
    simp only [Instr.imm8, BitVec.toNat_setWidth]
    omega
  | rd v => cases v <;> rfl

theorem admits_none_iff (o : Option Nat) : OperandClass.none.admits o = true ↔ o = none := by
  cases o <;> simp [OperandClass.admits, OperandClass.bound]

/-- A class of `2 ^ n` operand values admits the values of `n` bits and nothing else (rule R72). -/
theorem operand_of_admits {c : OperandClass} {n : Nat} {o : Option Nat} (hc : c.bound = 2 ^ n)
    (h : c.admits o = true) : ∃ x : BitVec n, o = some x.toNat := by
  cases o with
  | none =>
    obtain rfl : c = .none := of_decide_eq_true h
    exact absurd hc.symm (Nat.two_pow_pos n).ne'
  | some v =>
    have hv : v < 2 ^ n := hc ▸ of_decide_eq_true h
    exact ⟨BitVec.ofNat n v, by rw [BitVec.toNat_ofNat, Nat.mod_eq_of_lt hv]⟩

/-- Every well-formed line is an instruction's: its class's operand values are the instructions' own (rules
R72, R82). -/
theorem exists_sourceLine_eq {l : SourceLine} (h : l.wf = true) : ∃ i : Instr, i.sourceLine = l := by
  obtain ⟨m, o⟩ := l
  have hnone : m.operandClass = .none → none = o := fun hm => ((admits_none_iff o).1 (hm ▸ h)).symm
  cases m with
  | NOP => exact ⟨.nop, congrArg _ (hnone rfl)⟩
  | RST => exact ⟨.rst, congrArg _ (hnone rfl)⟩
  | SEQ_INC => exact ⟨.seqInc, congrArg _ (hnone rfl)⟩
  | TX_CLR => exact ⟨.txClr, congrArg _ (hnone rfl)⟩
  | TX_FRAME => exact ⟨.txFrame, congrArg _ (hnone rfl)⟩
  | TX_POP => exact ⟨.txPop, congrArg _ (hnone rfl)⟩
  | SEQ_SET =>
    obtain ⟨b, rfl⟩ := operand_of_admits (n := 8) rfl h
    exact ⟨.seqSet b, rfl⟩
  | TX_PUT =>
    obtain ⟨b, rfl⟩ := operand_of_admits (n := 8) rfl h
    exact ⟨.txPut b, rfl⟩
  | RX_PUSH =>
    obtain ⟨b, rfl⟩ := operand_of_admits (n := 8) rfl h
    exact ⟨.rxPush b, rfl⟩
  | RX_ARM =>
    obtain ⟨x, rfl⟩ := operand_of_admits (n := 1) rfl h
    have hbit : ∀ x : BitVec 1, (x.getLsbD 0).toNat = x.toNat := by decide
    exact ⟨.rxArm (x.getLsbD 0), congrArg (fun v => SourceLine.mk .RX_ARM (some v)) (hbit x)⟩
  | RX_GET =>
    obtain ⟨k, rfl⟩ := operand_of_admits (n := 7) rfl h
    exact ⟨.rxGet k, rfl⟩
  | RD =>
    obtain ⟨x, rfl⟩ := operand_of_admits (n := 4) rfl h
    exact ⟨.rd (RegView.ofSelector x),
      congrArg (fun v => SourceLine.mk .RD (some v)) (selector_ofSelector x)⟩

namespace Machine

theorem assembleLine_sourceLine (i : Instr) : assembleLine i.sourceLine = some (encode i) := by
  have hwf : i.sourceLine.wf = true := instr_wf i
  refine (if_pos hwf).trans (congrArg some ?_)
  rw [ofNat_operand]
  rfl

theorem wf_of_assembleLine {l : SourceLine} {w : CommandWord} (h : assembleLine l = some w) :
    l.wf = true := by
  by_contra hwf
  rw [assembleLine, if_neg hwf] at h
  cases h

/-- Settles O6: an instruction's line gets its encoding, and a line that gets a word is well formed, so an
instruction's. -/
theorem assemblerGivesTheInstructionsWord : Obligations.AssemblerGivesTheInstructionsWord := by
  unfold Obligations.AssemblerGivesTheInstructionsWord
  refine ⟨assembleLine_sourceLine, fun l w h => ?_⟩
  obtain ⟨i, rfl⟩ := exists_sourceLine_eq (wf_of_assembleLine h)
  rw [assembleLine_sourceLine] at h
  cases h
  exact ⟨i, rfl, decode_encode i⟩

end Machine
end Sys2Proof
end

section
/-! Steps (rules R12, R166, R180): a step as the next word's command, what every step keeps, and the reset
values. -/

namespace Sys2Proof.Machine

theorem step_of_pending_cons {s : State} {w : CommandWord} {rest : List CommandWord}
    (h : s.pending = w :: rest) : step s = command w { s with pending := rest } := by
  simp only [step, fetch, h]

theorem step_of_pending_nil {s : State} (h : s.pending = []) : step s = .next s := by
  simp only [step, fetch, h]

/-- Settles O9: the next word is performed as `command` performs it. -/
theorem stepRunsTheDecodedCommand : Obligations.StepRunsTheDecodedCommand := by
  unfold Obligations.StepRunsTheDecodedCommand
  exact ⟨fun s w rest i hp hd => (step_of_pending_cons hp).trans (command_of_ok hd _),
    fun s w rest e hp hd => (step_of_pending_cons hp).trans (command_of_error hd _),
    fun s => step_of_pending_nil⟩

/-- What does not speak of the host's words and every command word keeps, every step keeps. -/
theorem step_keeps {P : State → Prop} (hpending : ∀ s ws, P s → P { s with pending := ws })
    (hcommand : ∀ w s t, P s → command w s = .next t → P t) {s t : State} (hs : P s)
    (h : step s = .next t) : P t := by
  rcases step_next h with ⟨-, rfl⟩ | ⟨w, rest, -, hw⟩
  · exact hs
  · exact hcommand w _ t (hpending s rest hs) hw

/-- Settles O31: every command word keeps I1 to I7, which do not speak of the host's words. -/
theorem everyStepKeepsTheInvariants : Obligations.EveryStepKeepsTheInvariants := by
  unfold Obligations.EveryStepKeepsTheInvariants
  exact fun s t => step_keeps (P := State.Inv) (fun _ _ hs => hs) fun _ _ _ => command_keeps_inv

theorem resetRegisters_atResetValues (s : State) : AtResetValues (resetRegisters s) :=
  reset_atResetValues

/-- Settles O12: RST's row takes IMM8 = 0x00 alone, and RST writes the values of power-on reset. -/
theorem rstGivesThePowerOnState : Obligations.RstGivesThePowerOnState :=
  ⟨wordsOf_none fun _ => rfl, reset_atResetValues,
    fun s => ⟨_, rfl, resetRegisters_atResetValues s, rfl, rfl⟩⟩

end Sys2Proof.Machine
end

section
/-! The checksum invariant of a frame in flight (rule R175). -/

namespace Sys2Proof.Machine

theorem latchedChecksum_iff (s : State) :
    s.LatchedChecksum ↔ (s.txact = true → s.txsum = payloadSum s.txbuf) := by
  rw [State.LatchedChecksum, checksum_eq_payloadSum]

theorem latchedChecksum_of_not_emitting {s : State} (ha : s.txact = false) : s.LatchedChecksum :=
  fun h => nomatch ha.symm.trans h

/-- Every instruction keeps the payload of a frame in flight equal to its latched checksum: TX_PUT writes
TXBUF with no frame in flight alone, and TX_FRAME latches anew (rule R175). -/
theorem exec_keeps_latchedChecksum {i : Instr} {s t : State} (hs : s.LatchedChecksum)
    (h : exec i s = .next t) : t.LatchedChecksum := by
  cases i with
  | nop | seqSet b | seqInc | rxArm m | rxGet k | rd v =>
    cases h
    exact hs
  | rst | txClr =>
    cases h
    exact latchedChecksum_of_not_emitting rfl
  | txPut b =>
    rcases execTxPut_next h with ⟨-, rfl⟩ | ⟨-, -, rfl⟩ | ⟨ha, -, -, rfl⟩
    · exact hs
    · exact hs
    · exact latchedChecksum_of_not_emitting ha
  | txFrame =>
    cases h
    exact fun _ => rfl
  | txPop =>
    rcases execTxPop_next h with ⟨-, rfl⟩ | ⟨ha, -, rfl⟩
    · exact hs
    · exact fun _ => hs ha
  | rxPush b =>
    rcases execRxPush_next h with ⟨-, rfl⟩ | ⟨-, -, rfl⟩
    · exact hs
    · simpa [State.LatchedChecksum] using hs

theorem command_keeps_latchedChecksum {w : CommandWord} {s t : State} (hs : s.LatchedChecksum)
    (h : command w s = .next t) : t.LatchedChecksum := by
  rcases command_next h with ⟨i, -, hi⟩ | ⟨e, -, rfl⟩
  · exact exec_keeps_latchedChecksum hs hi
  · exact hs

/-- Settles O35: every command word keeps the checksum invariant, whatever else holds of the state. -/
theorem payloadMatchesTheLatchedChecksum : Obligations.PayloadMatchesTheLatchedChecksum := by
  unfold Obligations.PayloadMatchesTheLatchedChecksum
  intro s t
  rw [← latchedChecksum_iff, ← latchedChecksum_iff]
  exact step_keeps (P := State.LatchedChecksum) (fun _ _ hs => hs)
    fun _ _ _ => command_keeps_latchedChecksum

end Sys2Proof.Machine
end

section
/-! What the rules say of a received frame (rules R30 to R36, R131): every stage of RX_PUSH keeps it, and no
other command but RX_ARM and RST touches the validator. -/

namespace Sys2Proof.Machine

/-- No verdict stands, so none has a meaning to keep. -/
theorem verdictMeans_of_not_done {s : State} (hd : s.rxdone = false) : s.VerdictMeans :=
  fun h => nomatch hd.symm.trans h

/-- A validator that is not ARMED is at no stage. -/
theorem stagesPassed_of_not_armed {s : State} (ha : s.rxact = false) : s.StagesPassed :=
  fun h => nomatch ha.symm.trans h

/-- A validator that is ARMED or DONE is not IDLE. -/
theorem idleFresh_of_not_idle {s : State} (h : s.rxact = true ∨ s.rxdone = true) : s.IdleFresh :=
  fun ha hd => by simp [ha, hd] at h

/-- What RXHDR, RXSEQ and RXCMP say of the frame so far, by a stage or by a verdict (rules R126 to R131). -/
def State.FrameJudged (s : State) : Prop := s.StagesPassed ∧ s.VerdictMeans

/-- With a verdict only its meaning is left to show. -/
theorem frameJudged_of_judged {s : State} (ha : s.rxact = false) (hv : s.VerdictMeans) :
    s.FrameJudged :=
  ⟨stagesPassed_of_not_armed ha, hv⟩

/-- The header byte, with the position advanced to 1 (rule R126). -/
theorem headerStage_frameJudged (b : Byte) {s : State} (hp : s.rxpos.toNat = 1)
    (hd : s.rxdone = false) : (headerStage b s).FrameJudged := by
  rcases headerStage_cases b s with ⟨hb, e⟩ | ⟨hb, e⟩ | ⟨hsoh, heot, e⟩ <;> rw [e]
  · exact ⟨fun _ => ⟨fun _ => hb, fun h3 => absurd h3 (by simp [hp])⟩, verdictMeans_of_not_done hd⟩
  · exact frameJudged_of_judged rfl fun _ => .inl ⟨rfl, hp, hb⟩
  · exact frameJudged_of_judged rfl fun _ => .inr (.inl ⟨rfl, hp, hsoh, heot⟩)

/-- The complement byte, with the position advanced to 3 (rule R128). -/
theorem cmpStage_frameJudged (b : Byte) {s : State} (hp : s.rxpos.toNat = 3)
    (hd : s.rxdone = false) (hhdr : s.rxhdr = Config.soh) : (cmpStage b s).FrameJudged := by
  rcases cmpStage_cases b s with ⟨hb, e⟩ | ⟨hb, hchk, hseq, e⟩ | ⟨hb, hseq, e⟩ <;> rw [e]
  · exact frameJudged_of_judged rfl fun _ => .inr (.inr (.inl ⟨rfl, hp, hhdr, hb⟩))
  · exact frameJudged_of_judged rfl fun _ =>
      .inr (.inr (.inr (.inl ⟨rfl, hp, hhdr, hb, hchk, hseq⟩)))
  · exact ⟨fun _ => ⟨fun _ => hhdr, fun _ => ⟨hb, hseq⟩⟩, verdictMeans_of_not_done hd⟩

/-- The checksum byte, with the position advanced to 132 (rule R130). -/
theorem sumStage_frameJudged (b : Byte) {s : State} (hp : s.rxpos.toNat = 132)
    (hpass : s.SequencePassed) : (sumStage b s).FrameJudged := by
  rcases sumStage_cases b s with ⟨hb, e⟩ | ⟨hb, e⟩ <;> rw [e]
  · exact frameJudged_of_judged rfl fun _ =>
      .inr (.inr (.inr (.inr (.inl ⟨rfl, hp, hpass, hb⟩))))
  · exact frameJudged_of_judged rfl fun _ =>
      .inr (.inr (.inr (.inr (.inr ⟨rfl, hp, hpass, hb⟩))))

/-- The stage of the next byte keeps what the captured bytes say, the position being advanced first (rule
R124). -/
theorem rxStage_frameJudged (b : Byte) {s : State} (ha : s.rxact = true) (hd : s.rxdone = false)
    (hl : s.rxpos.toNat < 132) (hs : s.StagesPassed) :
    (rxStage ⟨s.rxpos.toNat, hl⟩ b { s with rxpos := s.rxpos + 1 }).FrameJudged := by
  have hpos : (s.rxpos + 1).toNat = s.rxpos.toNat + 1 := toNat_succ_of_lt (by omega)
  obtain ⟨hhdr, hcmp⟩ := hs ha
  rcases rxStage_cases ⟨s.rxpos.toNat, hl⟩ b { s with rxpos := s.rxpos + 1 } with
    ⟨hp, e⟩ | ⟨hp, e⟩ | ⟨hp, e⟩ | ⟨i, hp, e⟩ | ⟨hp, e⟩ <;> rw [e] <;> simp only at hp
  · exact headerStage_frameJudged b (by simp only; omega) hd
  · have hnot : ¬3 ≤ (s.rxpos + 1).toNat := by omega
    exact ⟨fun _ => ⟨fun _ => hhdr (by omega), fun h => absurd h hnot⟩, verdictMeans_of_not_done hd⟩
  · exact cmpStage_frameJudged b (by simp only; omega) hd (hhdr (by omega))
  · exact ⟨fun _ => ⟨fun _ => hhdr (by omega), fun _ => hcmp (by omega)⟩, verdictMeans_of_not_done hd⟩
  · obtain ⟨hc, hq⟩ := hcmp (by omega)
    exact sumStage_frameJudged b (by simp only; omega) ⟨hhdr (by omega), hc, hq⟩

/-- The stage of the next byte writes no capture register the frame has not reached (rule R36). -/
theorem rxStage_keeps_capturesUnreached (b : Byte) {s : State} (hl : s.rxpos.toNat < 132)
    (h : s.CapturesUnreached) :
    (rxStage ⟨s.rxpos.toNat, hl⟩ b { s with rxpos := s.rxpos + 1 }).CapturesUnreached := by
  have hpos : (s.rxpos + 1).toNat = s.rxpos.toNat + 1 := toNat_succ_of_lt (by omega)
  obtain ⟨hhdr, hseq, hcmp, hck⟩ := h
  obtain ⟨ehdr, eseq, ecmp, eck⟩ :=
    rxStage_captures ⟨s.rxpos.toNat, hl⟩ b { s with rxpos := s.rxpos + 1 }
  unfold State.CapturesUnreached
  rw [rxStage_rxpos, ehdr, eseq, ecmp, eck]
  simp only [hpos]
  refine ⟨fun hp => ?_, fun hp => ?_, fun hp => ?_, fun hp => ?_⟩
  · omega
  · rw [if_neg (by omega), hseq (by omega)]
  · rw [if_neg (by omega), hcmp (by omega)]
  · rw [if_neg (by omega), hck (by omega)]

theorem rxStage_keeps_frameInv (b : Byte) {s : State} (ha : s.rxact = true) (hd : s.rxdone = false)
    (hl : s.rxpos.toNat < 132) (hs : s.FrameInv) :
    (rxStage ⟨s.rxpos.toNat, hl⟩ b { s with rxpos := s.rxpos + 1 }).FrameInv := by
  obtain ⟨-, hcaptures, hsum, hstages, -⟩ := hs
  have hidle : (rxStage ⟨s.rxpos.toNat, hl⟩ b { s with rxpos := s.rxpos + 1 }).IdleFresh := by
    apply idleFresh_of_not_idle
    rcases rxStage_verdict ⟨s.rxpos.toNat, hl⟩ b { s with rxpos := s.rxpos + 1 } ha with
      ⟨-, hdone, -⟩ | ⟨hact, -, -⟩
    · exact .inr hdone
    · exact .inl hact
  exact ⟨hidle, rxStage_keeps_capturesUnreached b hl hcaptures, rxStage_keeps_sumOfReceived b hl hsum,
    rxStage_frameJudged b ha hd hl hstages⟩

theorem rxArm_frameInv (m : Bool) {s t : State} (h : exec (.rxArm m) s = .next t) : t.FrameInv := by
  rw [exec_rxArm] at h
  cases h
  exact ⟨idleFresh_of_not_idle (.inl rfl), by simp [State.CapturesUnreached],
    by simp [State.SumOfReceived, State.received], fun _ => by simp, verdictMeans_of_not_done rfl⟩

theorem resetRegisters_frameInv (s : State) : (resetRegisters s).FrameInv :=
  ⟨fun _ _ => ⟨rfl, rfl, rfl, rfl, rfl, rfl, rfl, rfl, rfl, rfl⟩, by simp [State.CapturesUnreached],
    by simp [State.SumOfReceived, State.received], stagesPassed_of_not_armed rfl,
    verdictMeans_of_not_done rfl⟩

/-- Every instruction keeps what the rules say of a received frame, given that an ARMED validator has no
verdict (rule R30). -/
theorem exec_keeps_frameInv {i : Instr} {s t : State} (hstate : s.ValidatorState) (hs : s.FrameInv)
    (h : exec i s = .next t) : t.FrameInv := by
  cases i with
  | nop | seqSet b | seqInc | txClr | txFrame | rxGet k | rd v =>
    cases h
    exact hs
  | rst =>
    cases h
    exact resetRegisters_frameInv s
  | txPut b => rcases execTxPut_next h with ⟨-, rfl⟩ | ⟨-, -, rfl⟩ | ⟨-, -, -, rfl⟩ <;> exact hs
  | txPop => rcases execTxPop_next h with ⟨-, rfl⟩ | ⟨-, -, rfl⟩ <;> exact hs
  | rxArm m => exact rxArm_frameInv m h
  | rxPush b =>
    rcases execRxPush_next h with ⟨-, rfl⟩ | ⟨ha, hl, rfl⟩
    · exact hs
    · have hd : s.rxdone = false := by simpa using fun hd => hstate ⟨ha, hd⟩
      exact rxStage_keeps_frameInv b ha hd hl hs

theorem command_keeps_frameInv {w : CommandWord} {s t : State} (hstate : s.ValidatorState)
    (hs : s.FrameInv) (h : command w s = .next t) : t.FrameInv := by
  rcases command_next h with ⟨i, -, hi⟩ | ⟨e, -, rfl⟩
  · exact exec_keeps_frameInv hstate hs hi
  · exact hs

theorem validatorState_of_inv {s : State} : s.Inv → s.ValidatorState :=
  fun ⟨_, _, hstate, _⟩ => hstate

/-- Everything the statements say of a reachable state. -/
def State.Sound (s : State) : Prop := s.Inv ∧ s.LatchedChecksum ∧ s.FrameInv

theorem command_keeps_sound {w : CommandWord} {s t : State} (hs : s.Sound)
    (h : command w s = .next t) : t.Sound := by
  obtain ⟨hinv, hsum, hframe⟩ := hs
  exact ⟨command_keeps_inv hinv h, command_keeps_latchedChecksum hsum h,
    command_keeps_frameInv (validatorState_of_inv hinv) hframe h⟩

theorem resetRegisters_sound (s : State) : (resetRegisters s).Sound :=
  ⟨resetRegisters_inv s, latchedChecksum_of_not_emitting rfl, resetRegisters_frameInv s⟩

/-- Settles O36: the frame invariants are kept together with I3, which an RX_PUSH needs. -/
theorem everyStepKeepsTheFrameInvariants : Obligations.EveryStepKeepsTheFrameInvariants := by
  unfold Obligations.EveryStepKeepsTheFrameInvariants
  intro s t hinv hframe h
  have hboth : t.Inv ∧ t.FrameInv :=
    step_keeps (P := fun s => s.Inv ∧ s.FrameInv) (fun _ _ hs => hs)
      (fun _ _ _ ⟨hinv, hframe⟩ hw =>
        ⟨command_keeps_inv hinv hw, command_keeps_frameInv (validatorState_of_inv hinv) hframe hw⟩)
      ⟨hinv, hframe⟩ h
  exact hboth.2

/-- Settles O30: reset with any words of the host to come has the reset registers. -/
theorem resetSatisfiesTheInvariants : Obligations.ResetSatisfiesTheInvariants := by
  unfold Obligations.ResetSatisfiesTheInvariants
  exact fun ws => resetRegisters_sound { State.reset with pending := ws }

/-- Settles O37: reset has the invariants, every command word keeps them, and so does every run. -/
theorem reachableVerdictsMeanWhatTheySay : Obligations.ReachableVerdictsMeanWhatTheySay := by
  unfold Obligations.ReachableVerdictsMeanWhatTheySay
  intro ws t resps h
  obtain ⟨-, hsum, hframe⟩ := run_keeps (P := State.Sound) (fun _ _ _ => command_keeps_sound)
    (resetRegisters_sound State.reset) h
  exact ⟨hframe, (latchedChecksum_iff t).1 hsum⟩

end Sys2Proof.Machine
end

section
/-! Where the model stops (assumption 5): exactly outside the ranges of rule R41, and never from reset. -/

namespace Sys2Proof.Machine

/-- The command stops with `f`: a rule would index a buffer or a frame outside its range (assumption 5). -/
def StopsWith (f : Fault) (i : Instr) (s : State) : Prop :=
  (∃ b, i = .txPut b ∧ s.txact = false ∧ 128 < s.txcnt.toNat ∧ f = .txPutIndexOutside) ∨
  (i = .txPop ∧ s.txact = true ∧ 131 < s.txpos.toNat ∧ f = .txPopPositionOutside) ∨
  (∃ b, i = .rxPush b ∧ s.rxact = true ∧ 131 < s.rxpos.toNat ∧ f = .rxPushPositionOutside)

theorem exec_txPut_outside (b : Byte) {s : State} (ha : s.txact = false) (hc : 128 < s.txcnt.toNat) :
    exec (.txPut b) s = .fault .txPutIndexOutside := by
  have hfull : s.txcnt ≠ 128 := fun e => by simp [e] at hc
  show execTxPut b s = _
  rw [execTxPut, if_neg (by simp [ha]), if_neg hfull, dif_neg (by omega)]

theorem exec_txPop_outside {s : State} (ha : s.txact = true) (hp : 131 < s.txpos.toNat) :
    exec .txPop s = .fault .txPopPositionOutside := by
  show execTxPop s = _
  rw [execTxPop, if_pos ha, dif_neg (by omega)]

theorem exec_rxPush_outside (b : Byte) {s : State} (ha : s.rxact = true) (hp : 131 < s.rxpos.toNat) :
    exec (.rxPush b) s = .fault .rxPushPositionOutside := by
  show execRxPush b s = _
  rw [execRxPush, if_pos ha, dif_neg (by omega)]

theorem exec_rxPush_idle (b : Byte) {s : State} (ha : s.rxact = false) :
    exec (.rxPush b) s = .next (setErr .rxIdle s) :=
  if_neg (by simp [ha])

/-- Settles O21: RX_PUSH's row takes every byte, and RXIDLE is raised with no frame armed. -/
theorem rxPushRefusedUnlessArmed : Obligations.RxPushRefusedUnlessArmed :=
  ⟨wordsOf_byte fun _ => rfl, fun b _ ha => exec_rxPush_idle b ha⟩

theorem exec_of_stopsWith {f : Fault} {i : Instr} {s : State} (h : StopsWith f i s) :
    exec i s = .fault f := by
  rcases h with ⟨b, rfl, ha, hc, rfl⟩ | ⟨rfl, ha, hp, rfl⟩ | ⟨b, rfl, ha, hp, rfl⟩
  · exact exec_txPut_outside b ha hc
  · exact exec_txPop_outside ha hp
  · exact exec_rxPush_outside b ha hp

/-- Every command answers a next state or stops outside a range. -/
theorem exec_next_or_stopsWith (i : Instr) (s : State) :
    (∃ t, exec i s = .next t) ∨ ∃ f, StopsWith f i s := by
  cases i with
  | nop | rst | seqSet b | seqInc | txClr | txFrame | rxArm m | rxGet k | rd v => exact .inl ⟨_, rfl⟩
  | txPut b =>
    cases ha : s.txact with
    | true => exact .inl ⟨_, exec_txPut_busy b ha⟩
    | false =>
      rcases lt_trichotomy s.txcnt.toNat 128 with hc | hc | hc
      · exact .inl ⟨_, exec_txPut_append b ha hc⟩
      · exact .inl ⟨_, exec_txPut_full b ha hc⟩
      · exact .inr ⟨_, .inl ⟨b, rfl, ha, hc, rfl⟩⟩
  | txPop =>
    cases ha : s.txact with
    | false => exact .inl ⟨_, exec_txPop_empty ha⟩
    | true =>
      rcases Nat.lt_or_ge s.txpos.toNat 132 with hp | hp
      · exact .inl ⟨_, exec_txPop_emit ha hp⟩
      · exact .inr ⟨_, .inr (.inl ⟨rfl, ha, hp, rfl⟩)⟩
  | rxPush b =>
    cases ha : s.rxact with
    | false => exact .inl ⟨_, exec_rxPush_idle b ha⟩
    | true =>
      rcases Nat.lt_or_ge s.rxpos.toNat 132 with hp | hp
      · exact .inl ⟨_, exec_rxPush_armed b ha rfl hp⟩
      · exact .inr ⟨_, .inr (.inr ⟨b, rfl, ha, hp, rfl⟩)⟩

theorem exec_fault_iff {i : Instr} {s : State} {f : Fault} :
    exec i s = .fault f ↔ StopsWith f i s := by
  refine ⟨fun h => ?_, exec_of_stopsWith⟩
  rcases exec_next_or_stopsWith i s with ⟨t, ht⟩ | ⟨f', hf⟩
  · cases h.symm.trans ht
  · cases h.symm.trans (exec_of_stopsWith hf)
    exact hf

theorem exec_ne_refused (i : Instr) (s : State) (r : Refusal) : exec i s ≠ .refused r := by
  intro h
  rcases exec_next_or_stopsWith i s with ⟨t, ht⟩ | ⟨f, hf⟩
  · cases h.symm.trans ht
  · cases h.symm.trans (exec_of_stopsWith hf)

/-- Settles O29: a command answers a next state, or stops with the fault of its range. -/
theorem faultsOnlyOutsideTheRanges : Obligations.FaultsOnlyOutsideTheRanges := by
  unfold Obligations.FaultsOnlyOutsideTheRanges
  exact fun i s => ⟨fun _ => exec_fault_iff, exec_ne_refused i s⟩

/-- Rule R41 keeps TXCNT, TXPOS and RXPOS in the ranges the rules index. -/
theorem not_stopsWith_of_inv {f : Fault} {i : Instr} {s : State} (hs : s.Inv) : ¬StopsWith f i s := by
  obtain ⟨-, ⟨hemit, -⟩, -, -, harmed, -, -, -, hcnt⟩ := hs
  rintro (⟨b, -, -, hc, -⟩ | ⟨-, ha, hp, -⟩ | ⟨b, -, ha, hp, -⟩)
  · exact hc.not_ge hcnt
  · exact hp.not_ge (hemit ha)
  · exact hp.not_ge (harmed ha).1

theorem exec_next_of_inv (i : Instr) {s : State} (hs : s.Inv) : ∃ t, exec i s = .next t :=
  (exec_next_or_stopsWith i s).resolve_right fun ⟨_, hf⟩ => not_stopsWith_of_inv hs hf

theorem command_next_of_inv (w : CommandWord) {s : State} (hs : s.Inv) :
    ∃ t, command w s = .next t := by
  cases hd : decode w with
  | ok i =>
    obtain ⟨t, ht⟩ := exec_next_of_inv i hs
    exact ⟨t, (command_of_ok hd s).trans ht⟩
  | error e => exact ⟨_, command_of_error hd s⟩

/-- Settles O33: the next word's command has a next state under the invariants, and with no word the state
is held. -/
theorem noStepStopsUnderTheInvariants : Obligations.NoStepStopsUnderTheInvariants := by
  unfold Obligations.NoStepStopsUnderTheInvariants
  intro s hs
  cases hp : s.pending with
  | nil => exact ⟨s, step_of_pending_nil hp⟩
  | cons w rest =>
    rw [step_of_pending_cons hp]
    exact command_next_of_inv w (s := { s with pending := rest }) hs

/-- Under the invariants a run performs every word and shows one response for each (rules R41, R180). -/
theorem run_next_of_inv (ws : List CommandWord) {s : State} (hs : s.Inv) :
    ∃ t rs, run ws s = .next (t, rs) ∧ rs.length = ws.length := by
  induction ws generalizing s with
  | nil => exact ⟨s, [], rfl, rfl⟩
  | cons w ws ih =>
    obtain ⟨t, hw⟩ := command_next_of_inv w hs
    obtain ⟨u, rs, hrun, hlen⟩ := ih (command_keeps_inv hs hw)
    exact ⟨u, t.resp :: rs, run_cons_of_next hw hrun, congrArg Nat.succ hlen⟩

/-- Settles O34: reset satisfies the invariants. -/
theorem runsFromResetPerformEveryWord : Obligations.RunsFromResetPerformEveryWord := by
  unfold Obligations.RunsFromResetPerformEveryWord
  exact fun ws => run_next_of_inv ws (resetRegisters_inv State.reset)

end Sys2Proof.Machine
end

section
/-! What a command writes and reads: the "written by" column of rule R20, and that no command depends on
the host's words or, the views of RD apart, on ERR (rule R151). -/

namespace Sys2Proof.Machine

/-- Settles O39: each command's effect against the column, and the commands of a column against its
exceptions. -/
theorem registersWrittenOnlyByTheirCommands : Obligations.RegistersWrittenOnlyByTheirCommands := by
  unfold Obligations.RegistersWrittenOnlyByTheirCommands
  intro i s t h
  cases i with
  | nop | rst | seqSet b | seqInc | txClr | txFrame | rxArm m | rxGet k | rd v =>
    cases h
    simp [Instr.mnemonic]
  | txPut b =>
    rcases execTxPut_next h with ⟨-, rfl⟩ | ⟨-, -, rfl⟩ | ⟨-, -, -, rfl⟩ <;> simp [Instr.mnemonic]
  | txPop => rcases execTxPop_next h with ⟨-, rfl⟩ | ⟨-, -, rfl⟩ <;> simp [Instr.mnemonic]
  | rxPush b => rcases execRxPush_next h with ⟨-, rfl⟩ | ⟨-, -, rfl⟩ <;> simp [Instr.mnemonic]

end Sys2Proof.Machine
end

section
/-! What a command does not read: no stage of RX_PUSH reads a register outside the validator, and no command
reads the host's words or, the views of RD apart, ERR (rule R151). -/

namespace Sys2Proof.Machine

/-- A state with the validator's registers of another. -/
def State.withValidatorOf (s v : State) : State :=
  { s with
    rxbuf := v.rxbuf, rxpos := v.rxpos, rxsum := v.rxsum, result := v.result, rxhdr := v.rxhdr
    rxseq := v.rxseq, rxcmp := v.rxcmp, rxck := v.rxck, rxexp := v.rxexp, chkseq := v.chkseq
    rxact := v.rxact, rxdone := v.rxdone }

/-- A stage works on the validator's registers alone, whatever the others hold (rules R126 to R130). -/
theorem rxStage_withValidatorOf (p : Fin 132) (b : Byte) (s v : State) :
    rxStage p b (s.withValidatorOf v) = s.withValidatorOf (rxStage p b v) := by
  have hheader : headerStage b (s.withValidatorOf v) = s.withValidatorOf (headerStage b v) := by
    simp only [headerStage, apply_ite s.withValidatorOf]
    rfl
  have hcmp : cmpStage b (s.withValidatorOf v) = s.withValidatorOf (cmpStage b v) := by
    simp only [cmpStage, apply_ite s.withValidatorOf]
    rfl
  have hsum : sumStage b (s.withValidatorOf v) = s.withValidatorOf (sumStage b v) := by
    simp only [sumStage, apply_ite s.withValidatorOf]
    rfl
  unfold rxStage
  split_ifs
  · exact hheader
  · rfl
  · exact hcmp
  · rfl
  · exact hsum

/-- The same state with another ERR and other words of the host. -/
def State.withErrPending (s : State) (e : Byte) (ws : List CommandWord) : State :=
  { s with err := e, pending := ws }

theorem rxStage_withErrPending (p : Fin 132) (b : Byte) (s : State) (e : Byte) (ws : List CommandWord) :
    rxStage p b (s.withErrPending e ws) = (rxStage p b s).withErrPending e ws := by
  refine (rxStage_withValidatorOf p b (s.withErrPending e ws) s).trans ?_
  simp [State.withValidatorOf, State.withErrPending]

/-- The views that show ERR are STATUS and ERR itself (rules R39, R40). -/
theorem viewOf_withErrPending {v : RegView} {s : State} {e : Byte} (ws : List CommandWord)
    (hv : e = s.err ∨ v ≠ .status ∧ v ≠ .err) : viewOf v (s.withErrPending e ws) = viewOf v s := by
  rcases hv with rfl | ⟨hstatus, herr⟩
  · cases v <;> rfl
  · cases v with
    | status => exact absurd rfl hstatus
    | err => exact absurd rfl herr
    | _ => rfl

/-- A command does the same to every register but ERR whatever ERR and the host's words are, and the same to
ERR when that is the same (rule R151). -/
theorem exec_withErrPending {i : Instr} {s t : State} {e : Byte} (ws : List CommandWord)
    (hi : e = s.err ∨ i ≠ .rd .status ∧ i ≠ .rd .err) (h : exec i s = .next t) :
    ∃ e', exec i (s.withErrPending e ws) = .next (t.withErrPending e' ws) ∧
      (e = s.err → e' = t.err) := by
  cases i with
  | nop | seqSet b | seqInc | txClr | txFrame | rxArm m | rxGet k =>
    cases h
    exact ⟨e, rfl, id⟩
  | rst =>
    cases h
    exact ⟨0x00, rfl, fun _ => rfl⟩
  | rd v =>
    cases h
    have hview := viewOf_withErrPending (v := v) ws (by simpa using hi)
    refine ⟨e, ?_, id⟩
    show Host.Outcome.next (respond (viewOf v (s.withErrPending e ws)) (s.withErrPending e ws)) = _
    rw [hview]
    rfl
  | txPut b =>
    rcases execTxPut_next h with ⟨ha, rfl⟩ | ⟨ha, hc, rfl⟩ | ⟨ha, -, hl, rfl⟩
    · exact ⟨_, exec_txPut_busy b (s := s.withErrPending e ws) ha, fun he => by rw [he]; rfl⟩
    · exact ⟨_, exec_txPut_full b (s := s.withErrPending e ws) ha (congrArg BitVec.toNat hc),
        fun he => by rw [he]; rfl⟩
    · exact ⟨e, exec_txPut_append b (s := s.withErrPending e ws) ha hl, id⟩
  | txPop =>
    rcases execTxPop_next h with ⟨ha, rfl⟩ | ⟨ha, hl, -⟩
    · exact ⟨_, exec_txPop_empty (s := s.withErrPending e ws) ha, fun he => by rw [he]; rfl⟩
    · cases h.symm.trans (exec_txPop_emit ha hl)
      exact ⟨e, exec_txPop_emit (s := s.withErrPending e ws) ha hl, id⟩
  | rxPush b =>
    rcases execRxPush_next h with ⟨ha, rfl⟩ | ⟨ha, hl, -⟩
    · exact ⟨_, exec_rxPush_idle b (s := s.withErrPending e ws) ha, fun he => by rw [he]; rfl⟩
    · cases h.symm.trans (exec_rxPush_armed b ha rfl hl)
      refine ⟨e, (exec_rxPush_armed b (s := s.withErrPending e ws) ha rfl hl).trans ?_,
        fun he => by rw [rxStage_err]; exact he⟩
      exact congrArg _ (rxStage_withErrPending _ b { s with rxpos := _ } e ws)

/-- A command word does the same to every register but ERR whatever ERR and the host's words are (rule
R151). -/
theorem command_withErrPending {w : CommandWord} {s t : State} {e : Byte} (ws : List CommandWord)
    (hw : e = s.err ∨ decode w ≠ .ok (.rd .status) ∧ decode w ≠ .ok (.rd .err))
    (h : command w s = .next t) :
    ∃ e', command w (s.withErrPending e ws) = .next (t.withErrPending e' ws) ∧
      (e = s.err → e' = t.err) := by
  rcases command_next h with ⟨i, hd, hi⟩ | ⟨f, hd, rfl⟩
  · rw [command_of_ok hd]
    exact exec_withErrPending ws (by simpa [hd] using hw) hi
  · exact ⟨_, command_of_error hd _, fun he => by rw [he]; rfl⟩

/-- No command reads the host's words (assumption 1). -/
theorem command_withPending {w : CommandWord} {s t : State} (ws : List CommandWord)
    (h : command w s = .next t) :
    command w { s with pending := ws } = .next { t with pending := ws } := by
  obtain ⟨e', hrun, he⟩ := command_withErrPending ws (.inl rfl) h
  rw [he rfl] at hrun
  exact hrun

/-- No command takes or adds a word of the host's (assumption 1). -/
theorem command_keeps_pending {w : CommandWord} {s t : State} (h : command w s = .next t) :
    t.pending = s.pending := by
  have hsame := h.symm.trans (command_withPending s.pending h)
  injection hsame with ht
  rw [ht]

/-- Settles O43: another ERR leaves the effect on every other register the same. -/
theorem errNeverBlocksACommand : Obligations.ErrNeverBlocksACommand := by
  unfold Obligations.ErrNeverBlocksACommand
  intro w s t e h hstatus herr
  obtain ⟨e', he, -⟩ := command_withErrPending s.pending (e := e) (.inr ⟨hstatus, herr⟩) h
  have hpending : t.pending = s.pending := command_keeps_pending h
  exact ⟨_, he, by rw [State.withErrPending, ← hpending]⟩

end Sys2Proof.Machine
end

section
/-! The command stream (rules R12, R58, R180): steps through the host's words are a run over them. -/

namespace Sys2Proof.Machine

/-- The model stops for no reason that lies in the host's words. -/
theorem command_fault_withPending {w : CommandWord} {s : State} {f : Fault} (ws : List CommandWord)
    (h : command w s = .fault f) : command w { s with pending := ws } = .fault f := by
  cases hd : decode w with
  | ok i =>
    rw [command_of_ok hd] at h ⊢
    have hstops : StopsWith f i s := exec_fault_iff.1 h
    exact exec_of_stopsWith (s := { s with pending := ws }) hstops
  | error e => cases (command_of_error hd s).symm.trans h

theorem command_ne_refused (w : CommandWord) (s : State) (r : Refusal) : command w s ≠ .refused r := by
  cases hd : decode w with
  | ok i =>
    rw [command_of_ok hd]
    exact exec_ne_refused i s r
  | error e =>
    rw [command_of_error hd]
    exact fun h => nomatch h

/-- What `ws.length` steps from `s` with the words `ws` pending do, against what the run over `ws` answers
(rules R12, R180). -/
def StepsFollow (ws : List CommandWord) (s : State) : Prop :=
  match run ws s with
  | .next (t, resps) =>
    core.run ws.length { s with pending := ws } = .next { t with pending := [] } ∧
    t.pending = s.pending ∧ resps.length = ws.length
  | .fault f => core.run ws.length { s with pending := ws } = .fault f
  | .refused r => core.run ws.length { s with pending := ws } = .refused r

theorem step_pending_cons (w : CommandWord) (ws : List CommandWord) (s : State) :
    step { s with pending := w :: ws } = command w { s with pending := ws } :=
  step_of_pending_cons (s := { s with pending := w :: ws }) rfl

theorem coreRun_succ_of_next {M : Host.Core} {n : Nat} {s t : M.State} (h : M.step s = .next t) :
    M.run (n + 1) s = M.run n t := by
  rw [Host.Core.run, h]

theorem coreRun_succ_of_fault {M : Host.Core} {n : Nat} {s : M.State} {f : M.Fault}
    (h : M.step s = .fault f) : M.run (n + 1) s = .fault f := by
  rw [Host.Core.run, h]

/-- One more word in front is one more step in front. -/
theorem stepsFollow_cons {w : CommandWord} {ws : List CommandWord} {s t : State}
    (hw : command w s = .next t) (h : StepsFollow ws t) : StepsFollow (w :: ws) s := by
  have hsteps : core.run (w :: ws).length { s with pending := w :: ws } =
      core.run ws.length { t with pending := ws } :=
    coreRun_succ_of_next (M := core) ((step_pending_cons w ws s).trans (command_withPending ws hw))
  unfold StepsFollow at h ⊢
  rw [hsteps]
  simp only [run, hw]
  cases hr : run ws t with
  | next p =>
    rw [hr] at h
    obtain ⟨hrun, hpending, hlen⟩ := h
    exact ⟨hrun, hpending.trans (command_keeps_pending hw), congrArg Nat.succ hlen⟩
  | fault f =>
    rw [hr] at h
    exact h
  | refused r =>
    rw [hr] at h
    exact h

theorem stepsFollow (ws : List CommandWord) (s : State) : StepsFollow ws s := by
  induction ws generalizing s with
  | nil => exact ⟨rfl, rfl, rfl⟩
  | cons w ws ih =>
    cases hw : command w s with
    | next t => exact stepsFollow_cons hw (ih t)
    | fault f =>
      unfold StepsFollow
      simp only [run, hw]
      have hstep := (step_pending_cons w ws s).trans (command_fault_withPending ws hw)
      exact coreRun_succ_of_fault (M := core) hstep
    | refused r => exact absurd hw (command_ne_refused w s r)

/-- Settles O10: the words are performed one by one, and what stands behind a word does not matter to its
command. -/
theorem stepsFollowTheCommandStream : Obligations.StepsFollowTheCommandStream := by
  unfold Obligations.StepsFollowTheCommandStream
  exact stepsFollow

end Sys2Proof.Machine
end

section
/-! The two datapaths (rule R3): the framer's part and the validator's part of a state, each with SEQ, and
that a command's effect on a part can be computed from that part alone. -/

namespace Sys2Proof.Machine

/-- SEQ and the framer of a state, with everything else at its reset value. -/
def State.framerPart (s : State) : State :=
  { State.reset with
    seq := s.seq, txbuf := s.txbuf, txcnt := s.txcnt, txpos := s.txpos, txseq := s.txseq
    txsum := s.txsum, txact := s.txact }

/-- SEQ and the validator of a state, with everything else at its reset value. -/
def State.validatorPart (s : State) : State := { State.reset with seq := s.seq }.withValidatorOf s

theorem sameFramer_iff (s t : State) : SameFramer s t ↔ s.framerPart = t.framerPart := by
  simp [SameFramer, State.framerPart]

theorem sameValidator_iff (s t : State) : SameValidator s t ↔ s.validatorPart = t.validatorPart := by
  simp [SameValidator, State.validatorPart, State.withValidatorOf]

/-- What a command does to the framer's part it does from that part alone. -/
theorem exec_framerPart {i : Instr} {s t : State} (h : exec i s = .next t) :
    ∃ u, exec i s.framerPart = .next u ∧ u.framerPart = t.framerPart := by
  cases i with
  | nop | rst | seqSet b | seqInc | txClr | txFrame | rxArm m | rxGet k | rd v =>
    cases h
    exact ⟨_, rfl, rfl⟩
  | txPut b =>
    rcases execTxPut_next h with ⟨ha, rfl⟩ | ⟨ha, hc, rfl⟩ | ⟨ha, -, hl, rfl⟩
    · exact ⟨_, exec_txPut_busy b (s := s.framerPart) ha, rfl⟩
    · exact ⟨_, exec_txPut_full b (s := s.framerPart) ha (congrArg BitVec.toNat hc), rfl⟩
    · exact ⟨_, exec_txPut_append b (s := s.framerPart) ha hl, rfl⟩
  | txPop =>
    rcases execTxPop_next h with ⟨ha, rfl⟩ | ⟨ha, hl, -⟩
    · exact ⟨_, exec_txPop_empty (s := s.framerPart) ha, rfl⟩
    · cases h.symm.trans (exec_txPop_emit ha hl)
      exact ⟨_, exec_txPop_emit (s := s.framerPart) ha hl, rfl⟩
  | rxPush b =>
    refine ⟨_, exec_rxPush_idle b (s := s.framerPart) rfl, ?_⟩
    rcases execRxPush_next h with ⟨-, rfl⟩ | ⟨-, -, rfl⟩
    · rfl
    · simp [State.framerPart]

/-- What a command does to the validator's part it does from that part alone. -/
theorem exec_validatorPart {i : Instr} {s t : State} (h : exec i s = .next t) :
    ∃ u, exec i s.validatorPart = .next u ∧ u.validatorPart = t.validatorPart := by
  cases i with
  | nop | rst | seqSet b | seqInc | txClr | txFrame | rxArm m | rxGet k | rd v =>
    cases h
    exact ⟨_, rfl, rfl⟩
  | txPut b =>
    refine ⟨_, exec_txPut_append b (s := s.validatorPart) rfl (by decide : (0x00 : Byte).toNat < 128), ?_⟩
    rcases execTxPut_next h with ⟨-, rfl⟩ | ⟨-, -, rfl⟩ | ⟨-, -, -, rfl⟩ <;> rfl
  | txPop =>
    refine ⟨_, exec_txPop_empty (s := s.validatorPart) rfl, ?_⟩
    rcases execTxPop_next h with ⟨-, rfl⟩ | ⟨-, -, rfl⟩ <;> rfl
  | rxPush b =>
    rcases execRxPush_next h with ⟨ha, rfl⟩ | ⟨ha, hl, -⟩
    · exact ⟨_, exec_rxPush_idle b (s := s.validatorPart) ha, rfl⟩
    · cases h.symm.trans (exec_rxPush_armed b ha rfl hl)
      refine ⟨_, exec_rxPush_armed b (s := s.validatorPart) ha rfl hl, ?_⟩
      have hstage := rxStage_withValidatorOf ⟨s.rxpos.toNat, hl⟩ b { State.reset with seq := s.seq }
        { s with rxpos := BitVec.ofNat 8 (s.rxpos.toNat + 1) }
      refine (congrArg State.validatorPart hstage).trans ?_
      simp [State.validatorPart, State.withValidatorOf]

/-- When commands act on a part of the state from that part alone, equal parts lead to equal parts. -/
theorem command_congr_part {part : State → State}
    (hexec : ∀ {i s t}, exec i s = .next t → ∃ u, exec i (part s) = .next u ∧ part u = part t)
    (herr : ∀ s, part (setErr .illegal s) = part s) {w : CommandWord} {s s' t t' : State}
    (h : command w s = .next t) (h' : command w s' = .next t') (hs : part s = part s') :
    part t = part t' := by
  cases hd : decode w with
  | ok i =>
    rw [command_of_ok hd] at h h'
    obtain ⟨u, hu, hpart⟩ := hexec h
    obtain ⟨u', hu', hpart'⟩ := hexec h'
    rw [hs] at hu
    cases hu.symm.trans hu'
    exact hpart.symm.trans hpart'
  | error e =>
    cases h.symm.trans (command_of_error hd s)
    cases h'.symm.trans (command_of_error hd s')
    rw [herr, herr, hs]

/-- Settles O48: each part of the next state is computed from that part of the state. -/
theorem datapathsShareOnlySeq : Obligations.DatapathsShareOnlySeq := by
  unfold Obligations.DatapathsShareOnlySeq
  intro w s s' t t' h h'
  simp only [sameFramer_iff, sameValidator_iff]
  exact ⟨command_congr_part exec_framerPart (fun _ => rfl) h h',
    command_congr_part exec_validatorPart (fun _ => rfl) h h'⟩

end Sys2Proof.Machine
end

section
/-! No hidden state (rule R44): every register is a view of RD, a bit of one, or a byte that RX_GET or a
frame shows. -/

namespace Sys2Proof.Machine

/-- Two states that agree on SEQ, the datapaths and ERR differ in RESP and the host's words alone. -/
theorem eq_of_same {s t : State} (hf : SameFramer s t) (hv : SameValidator s t) (he : s.err = t.err) :
    s = { t with resp := s.resp, pending := s.pending } := by
  obtain ⟨hseq, htxbuf, htxcnt, htxpos, htxseq, htxsum, htxact⟩ := hf
  obtain ⟨-, hrxbuf, hrxpos, hrxsum, hresult, hrxhdr, hrxseq, hrxcmp, hrxck, hrxexp, hchkseq, hrxact,
    hrxdone⟩ := hv
  cases s
  rw [State.mk.injEq]
  exact ⟨hseq, htxbuf, htxcnt, htxpos, htxseq, htxsum, htxact, hrxbuf, hrxpos, hrxsum, hresult, hrxhdr,
    hrxseq, hrxcmp, hrxck, hrxexp, he, hchkseq, hrxact, hrxdone, rfl, rfl⟩

/-- ERR is what selector 0x0E reads when its reserved bits are 0 (rules R37, R41). -/
theorem err_eq_errView {s : State} (h : s.ErrInv) : s.err = errView s := by
  have hbits : ∀ e : Byte, e &&& 0xE0 = 0x00 → e = e &&& 0x1F := by decide
  exact hbits s.err h

/-- STATUS shows TXACT, RXACT and RXDONE (rule R39). -/
theorem flags_of_statusView {s t : State} (h : statusView s = statusView t) :
    s.txact = t.txact ∧ s.rxact = t.rxact ∧ s.rxdone = t.rxdone := by
  obtain ⟨htx, -, hrx, hdone, -⟩ := statusView_isStatus s
  obtain ⟨htx', -, hrx', hdone', -⟩ := statusView_isStatus t
  rw [← htx, ← hrx, ← hdone, h]
  exact ⟨htx', hrx', hdone'⟩

theorem chkseq_of_ctrlView {s t : State} (h : ctrlView s = ctrlView t) : s.chkseq = t.chkseq := by
  obtain ⟨hs, -⟩ : (ctrlView s).getLsbD 0 = s.chkseq ∧ _ := viewOf_selectorReads .ctrl s
  obtain ⟨ht, -⟩ : (ctrlView t).getLsbD 0 = t.chkseq ∧ _ := viewOf_selectorReads .ctrl t
  rw [← hs, ← ht, h]

/-- The frame TX_FRAME begins shows all of TXBUF (rules R105, R107). -/
theorem frameByte_payload_of_exec_txFrame {s a : State} (h : exec .txFrame s = .next a) (i : Fin 128) :
    frameByte a ⟨3 + i.val, by omega⟩ = s.txbuf[i] := by
  cases h
  rw [frameByte_eq_frameAt]
  exact frameAt_payload _ _ _ i

/-- Settles O49: the views, RX_GET's bytes and the frames' payloads are all the registers. -/
theorem noHiddenState : Obligations.NoHiddenState := by
  unfold Obligations.NoHiddenState
  intro s t hs ht hrd hget hframe
  obtain ⟨-, -, herrs⟩ := (inv_iff s).1 hs
  obtain ⟨-, -, herrt⟩ := (inv_iff t).1 ht
  have hview : ∀ v, viewOf v s = viewOf v t := fun v => hrd v _ _ rfl rfl
  have hrxbuf : s.rxbuf = t.rxbuf := Vector.ext fun k hk => hget (BitVec.ofNatLT k hk) _ _ rfl rfl
  have htxbuf : s.txbuf = t.txbuf := Vector.ext fun k hk => by
    have hbyte := hframe _ _ rfl rfl ⟨3 + k, by omega⟩
    rwa [frameByte_payload_of_exec_txFrame rfl ⟨k, hk⟩,
      frameByte_payload_of_exec_txFrame rfl ⟨k, hk⟩] at hbyte
  obtain ⟨htxact, hrxact, hrxdone⟩ := flags_of_statusView (hview .status)
  refine eq_of_same ?_ ?_ ?_
  · exact ⟨hview .seq, htxbuf, hview .txcnt, hview .txpos, hview .txseq, hview .txsum, htxact⟩
  · exact ⟨hview .seq, hrxbuf, hview .rxpos, hview .rxsum, hview .result, hview .rxhdr, hview .rxseq,
      hview .rxcmp, hview .rxck, hview .rxexp, chkseq_of_ctrlView (hview .ctrl), hrxact, hrxdone⟩
  · calc s.err = errView s := err_eq_errView herrs
      _ = errView t := hview .err
      _ = t.err := (err_eq_errView herrt).symm

end Sys2Proof.Machine
end

section
/-! Retry (rules R105, R173, R178): a frame begun again, from any point of its emission. -/

namespace Sys2Proof.Machine

/-- RESP after a run is the last response, or what it was before a run of no words (rule R180). -/
theorem resp_of_run {ws : List CommandWord} {s t : State} {rs : List Byte}
    (h : run ws s = .next (t, rs)) : t.resp = rs.getLastD s.resp := by
  induction ws generalizing s rs with
  | nil =>
    cases h
    rfl
  | cons w ws ih =>
    obtain ⟨u, qs, -, hrun, rfl⟩ := run_cons_next h
    rw [ih hrun, List.getLastD_cons]

/-- Settles O54: the first emission leaves SEQ and TXBUF, of which the second frame is made. -/
theorem retryEmitsTheIdenticalFrame : Obligations.RetryEmitsTheIdenticalFrame := by
  unfold Obligations.RetryEmitsTheIdenticalFrame
  intro s k hk
  dsimp only
  rw [← checksum_eq_payloadSum]
  obtain ⟨t, hfirst, ht, -⟩ := run_txFrame_txPops s hk
  obtain ⟨u, hsecond, hu, -⟩ := run_txFrame_txPops t (Nat.le_refl 132)
  have hbuf : t.txbuf = s.txbuf := by rw [ht]
  have hseq : t.seq = s.seq := by rw [ht]
  have herr : t.err = s.err := by rw [ht]
  have hresp := resp_of_run hfirst
  rw [hbuf, hseq] at hsecond
  rw [List.getLastD_cons] at hresp ⊢
  refine ⟨u, ?_, by rw [hu, hbuf], by rw [hu, hseq], by rw [hu, herr]⟩
  rw [run_append hfirst, hsecond, ← List.map_take, List.take_range, Nat.min_eq_left hk, hresp]

end Sys2Proof.Machine
end
